-- ==== Sys2Proof/Word.lean ====
section
/-! DEFINITION. The word types of the swipe core: the formats of spec/30_encoding.md rule R100 whose
width the interface fixes. Quantities the rules only compare, add or count (R27) are not words: they are
`Nat` or `Int` in `State`. -/

namespace Sys2Proof

/-- One byte of a Source delivery (R76) or one output character (R113). -/
abbrev Byte := BitVec 8

/-- A raw sample: a signed 16-bit two's-complement word (R9, R101). -/
abbrev RawSample := BitVec 16

/-- A symbol word: bit k is the k-th bit received, bit 4 the parity bit (R103). -/
abbrev Symbol := BitVec 5

/-- A command code on the `CMD` port (R39, R110). -/
abbrev Command := BitVec 2

end Sys2Proof
end

