-- ==== Sys2Proof/Config.lean ====
section
/-! DEFINITION. What is fixed for the life of the block: the parameters of spec/00_scope.md rules R9 to R22
with their default values, and the one free value of the spec (R89). The machine takes the parameters as an
argument (R346, spec/93_implementation_defined.md section 4; log 15). -/

namespace Sys2Proof

/-- An exact rational factor num/den (R27): every comparison with one is cross-multiplied. -/
structure Ratio where
  num : Nat
  den : Nat
  deriving DecidableEq, Repr

/-- The parameters of the block, R10 to R21 and R87. `P_SAMPLE_BITS` (R9), `P_SYM_BITS` and `P_CHAR_OFFSET`
(R22) are not tunable: they are the word types and `Config.charOffset`. -/
structure Params where
  /-- `P_BLOCK_N`, samples per block (R10). -/
  blockN : Nat
  /-- `P_POW_WIN`, entries of the power window (R11). -/
  powWin : Nat
  /-- `P_THRESH_FACTOR`, from the window mean to the baseline (R12). -/
  threshFactor : Ratio
  /-- `P_TRIM_FACTOR`, from the baseline to the trim threshold (R13). -/
  trimFactor : Ratio
  /-- `P_TRIM_CHUNK`, samples per trim chunk (R14, open, at least 1). -/
  trimChunk : Nat
  /-- `P_MAX_ACTIVE`, most active blocks of one capture (R15, open): `none` stands for infinity. -/
  maxActive : Option Nat
  /-- `P_INIT_WINDOW`, samples of the detector's initial window (R16). -/
  initWindow : Nat
  /-- `P_INIT_FACTOR`, from the initial amplitude to the first threshold (R17). -/
  initFactor : Ratio
  /-- `P_NEXT_FACTOR`, from a peak to the next threshold (R18). -/
  nextFactor : Ratio
  /-- `P_DISCARD`, leading intervals dropped (R19). -/
  discard : Nat
  /-- `P_CLK_WIN`, slots of the clock window (R20). -/
  clkWin : Nat
  /-- `P_LONG_FACTOR`, from the clock mean to the long-cell cutoff (R21). -/
  longFactor : Ratio
  /-- `P_BASE_ADDR`, bus placement of the host ports (R87, open): no rule reads it. -/
  baseAddr : Option Nat
  deriving DecidableEq, Repr

/-- The values the rules R10 to R21 show; `P_TRIM_CHUNK` = 1000 and `P_MAX_ACTIVE` = infinity are the defaults
of the open parameters in spec/92_eei_decisions.md (D18, D20). -/
def Config.params : Params where
  blockN := 10000
  powWin := 4
  threshFactor := ⟨7, 2⟩
  trimFactor := ⟨1, 2⟩
  trimChunk := 1000
  maxActive := none
  initWindow := 1000
  initFactor := ⟨4, 5⟩
  nextFactor := ⟨1, 2⟩
  discard := 5
  clkWin := 4
  longFactor := ⟨3, 2⟩
  baseAddr := none

/-- `P_CHAR_OFFSET` = 48, not tunable (R22). -/
def Config.charOffset : Byte := 48#8

/-- FREE VALUE (R89, log 3): the byte a host read of `OUT` returns outside the result. Nothing constrains it;
the machine applies it to a counter of its state, so two such reads need not agree. -/
opaque Config.freeOutByte : Nat → Byte

end Sys2Proof
end

