-- ==== Sys2Proof/Syntax.lean ====
section
/-! DEFINITION. The instruction syntax: one constructor per row of spec/opcode_table.json. No row has an operand.
"Instruction" is used as in spec/00_scope.md rule R3: a symbol word of the data stream or a host command. -/

namespace Sys2Proof

/-- The 36 encoded words of the swipe core. -/
inductive Instr where
  /-- `DIGIT_0`: the symbol word 0x10, value 0, data character (R270). -/
  | digit0
  /-- `DIGIT_1`: the symbol word 0x01, value 1, data character (R271). -/
  | digit1
  /-- `DIGIT_2`: the symbol word 0x02, value 2, data character (R272). -/
  | digit2
  /-- `DIGIT_3`: the symbol word 0x13, value 3, data character (R273). -/
  | digit3
  /-- `DIGIT_4`: the symbol word 0x04, value 4, data character (R274). -/
  | digit4
  /-- `DIGIT_5`: the symbol word 0x15, value 5, data character (R275). -/
  | digit5
  /-- `DIGIT_6`: the symbol word 0x16, value 6, data character (R276). -/
  | digit6
  /-- `DIGIT_7`: the symbol word 0x07, value 7, data character (R277). -/
  | digit7
  /-- `DIGIT_8`: the symbol word 0x08, value 8, data character (R278). -/
  | digit8
  /-- `DIGIT_9`: the symbol word 0x19, value 9, data character (R279). -/
  | digit9
  /-- `COLON`: the symbol word 0x1A, value 10, data character (R280). -/
  | colon
  /-- `START_SENTINEL`: the symbol word 0x0B, value 11, start sentinel (R281). -/
  | startSentinel
  /-- `LESS`: the symbol word 0x1C, value 12, data character (R282). -/
  | less
  /-- `FIELD_SEP`: the symbol word 0x0D, value 13, field separator (R283). -/
  | fieldSep
  /-- `GREATER`: the symbol word 0x0E, value 14, data character (R284). -/
  | greater
  /-- `END_SENTINEL`: the symbol word 0x1F, value 15, end sentinel (R285). -/
  | endSentinel
  /-- `INVALID_0x00`: the even-parity symbol word 0x00 (R226, R126). -/
  | invalid00
  /-- `INVALID_0x03`: the even-parity symbol word 0x03 (R226, R126). -/
  | invalid03
  /-- `INVALID_0x05`: the even-parity symbol word 0x05 (R226, R126). -/
  | invalid05
  /-- `INVALID_0x06`: the even-parity symbol word 0x06 (R226, R126). -/
  | invalid06
  /-- `INVALID_0x09`: the even-parity symbol word 0x09 (R226, R126). -/
  | invalid09
  /-- `INVALID_0x0A`: the even-parity symbol word 0x0A (R226, R126). -/
  | invalid0A
  /-- `INVALID_0x0C`: the even-parity symbol word 0x0C (R226, R126). -/
  | invalid0C
  /-- `INVALID_0x0F`: the even-parity symbol word 0x0F (R226, R126). -/
  | invalid0F
  /-- `INVALID_0x11`: the even-parity symbol word 0x11 (R226, R126). -/
  | invalid11
  /-- `INVALID_0x12`: the even-parity symbol word 0x12 (R226, R126). -/
  | invalid12
  /-- `INVALID_0x14`: the even-parity symbol word 0x14 (R226, R126). -/
  | invalid14
  /-- `INVALID_0x17`: the even-parity symbol word 0x17 (R226, R126). -/
  | invalid17
  /-- `INVALID_0x18`: the even-parity symbol word 0x18 (R226, R126). -/
  | invalid18
  /-- `INVALID_0x1B`: the even-parity symbol word 0x1B (R226, R126). -/
  | invalid1B
  /-- `INVALID_0x1D`: the even-parity symbol word 0x1D (R226, R126). -/
  | invalid1D
  /-- `INVALID_0x1E`: the even-parity symbol word 0x1E (R226, R126). -/
  | invalid1E
  /-- `NOP`: command code 00 (R134, R110). -/
  | nop
  /-- `START`: command code 01 (R131, R110). -/
  | start
  /-- `CANCEL`: command code 10 (R133, R110). -/
  | cancel
  /-- `RESERVED_CMD`: command code 11 (R135, R110). -/
  | reservedCmd
  deriving DecidableEq, Repr

/-- The two code spaces of the table (R103, R110): a 5-bit symbol of the data stream, a 2-bit code on `CMD`. -/
inductive Space where
  | symbol
  | command
  deriving DecidableEq, Repr

end Sys2Proof
end

