-- ==== Sys2Proof/WellFormed.lean ====
section
/-! DEFINITION. The checks on the terms the machine is given. An instruction has no operand, so every `Instr` is
well-formed as syntax; what can be ill-formed is a move of the host, a word that claims to be stored, a parameter
set, a Source delivery and a track text. -/

namespace Sys2Proof

/-- The commands a conforming host issues (R111, R141): all but the reserved code. -/
def Instr.hostMayIssue (i : Instr) : Bool :=
  i == .nop || i == .start || i == .cancel

/-- The sixteen odd-parity words: the ones that may stand in `SYMS` (R104, R109, R226). -/
def Instr.mayStandInSyms (i : Instr) : Bool :=
  [Instr.digit0, .digit1, .digit2, .digit3, .digit4, .digit5, .digit6, .digit7, .digit8, .digit9,
    .colon, .startSentinel, .less, .fieldSep, .greater, .endSentinel].contains i

/-- A rational factor has a denominator. -/
def Ratio.wellFormed (r : Ratio) : Bool :=
  0 < r.den

/-- A parameter set the rules can be read with: positive sizes (R10, R11, R14, R16, R20), a positive capacity
(R15), and proper rationals (R12, R13, R17, R18, R21). -/
def Params.wellFormed (P : Params) : Bool :=
  0 < P.blockN && 0 < P.powWin && 0 < P.trimChunk && 0 < P.initWindow && 0 < P.clkWin &&
    P.maxActive != some 0 && P.threshFactor.wellFormed && P.trimFactor.wellFormed &&
    P.initFactor.wellFormed && P.nextFactor.wellFormed && P.longFactor.wellFormed

/-- The two threshold factors are those of R17 and R18: the register `THR10` and its width (R47) are stated for
these. -/
def Params.defaultFactors (P : Params) : Bool :=
  P.initFactor == ⟨4, 5⟩ && P.nextFactor == ⟨1, 2⟩

/-- A delivery of the length the Source contract asks for (R75, R77): exactly 2 × `P_BLOCK_N` bytes. -/
def Params.deliveryWellFormed (P : Params) (bytes : List Byte) : Bool :=
  bytes.length == 2 * P.blockN

/-- A track text of R117: characters in `0` .. `?`, the first `;`, the last `?`. -/
def trackTextWellFormed (text : List Byte) : Bool :=
  text.all (fun c => 0x30#8 ≤ c && c ≤ 0x3F#8) && text.head? == some 0x3B#8 &&
    2 ≤ text.length && text.getLast? == some 0x3F#8

end Sys2Proof
end

