-- ==== Sys2Proof/Machine/State.lean ====
section
/-! DEFINITION. The state of the swipe core: every register of spec/10_state.md and every buffer of
spec/20_memory.md (R30), as plain data, and the state after reset (spec/70_reset_and_hazards.md rule R330). The
last group of fields is the model's own (INVENTORY.md says which rule implies each). Registers hold mathematical
integers (R27); `Sys2Proof/Safety.lean` states the range of each as an invariant. -/

namespace Sys2Proof.Machine

/-- The value of the 3-bit register `PHASE` (R31). -/
inductive Phase where
  | idle | prime | scan | detect | recover | frame | decode
  /-- Code 7: reserved, never entered. -/
  | reserved
  deriving DecidableEq, Repr

/-- The value of the 3-bit register `RESULT_CODE` (R112). -/
inductive ResultCode where
  | ok | emptyCapture | missingStartSentinel | missingEndSentinel | badLrc | cancelled | captureOverflow
  /-- Code 7: reserved, never written. -/
  | reserved
  deriving DecidableEq, Repr

/-- An internal buffer (R70): the elements that differ from what an unlisted index reads as, by rising index. -/
abbrev Buffer (α : Type) := List (Nat × α)

/-- A move at a port other than `CMD` (R143). -/
inductive PortMove where
  /-- The Source delivers the bytes of a block on `BLK_DATA` (R75, R76). -/
  | deliver (bytes : List Byte)
  /-- The platform asserts `RST` (R330). -/
  | reset
  /-- The host reads `STATUS` (R38, R136). -/
  | readStatus
  /-- The host reads `RESULT_LEN` (R37, R136). -/
  | readLen
  /-- The host reads `OUT[k]` through `OUT_ADDR`, which carries `k` in `IW` bits, and `OUT_DATA` (R89, R143). -/
  | readOut (k : Nat)
  deriving DecidableEq, Repr

/-- One entry of the tape of moves (log 4). -/
inductive Move where
  /-- No agent outside moves: the core may take its next step. -/
  | core
  /-- The host writes a code to `CMD` (R130). -/
  | command (c : Command)
  /-- A move at another port. -/
  | port (m : PortMove)
  deriving DecidableEq, Repr

/-- What the host's last read returned (R136, log 19). -/
inductive HostView where
  | nothing
  | status (w : BitVec 16)
  | len (n : Nat)
  | out (b : Byte)
  deriving DecidableEq, Repr

/-- Why the machine stops although the core has no fault of its own (R324): a state outside the rules. -/
inductive Fault where
  /-- Raised by the core's step when `PHASE` holds 7 (93 section 1). Safe: no rule writes it. -/
  | reservedPhase
  /-- Raised by a host read of `STATUS` when a result with code 7 is reported (93 section 1). Safe: no rule writes it. -/
  | reservedOutcome
  /-- Raised by the priming step when `PRIME_CNT` is no index of `PWIN`. Safe: R153 leaves PRIME before that. -/
  | primeIndex
  /-- Raised by the detector when `DET_J` is at or past `WAVE_LEN`. Safe: no rule reads past the end (R342). -/
  | readPastEnd
  /-- Raised by the detector when `PEAK_IDX` is before `PREV_IDX`. Safe: peaks are recorded left to right (R187). -/
  | negativeInterval
  /-- Raised by a symbol word's meaning when no stage reads symbol words. Safe: the step never runs one then. -/
  | symbolNotRead
  deriving DecidableEq, Repr

/-- Moves the spec gives no party (93 section 3), and instructions without a meaning. -/
inductive Refusal where
  /-- An instruction whose arm has no meaning yet. No arm answers with it. Safe. -/
  | notModelled (mnemonic : String)
  /-- A Source delivery while no request is outstanding (R77, R331, R344). Safe: the contract forbids it. -/
  | deliveryWithoutRequest
  /-- A Source delivery of another length than 2 × `P_BLOCK_N` bytes (R77, R344). Safe: the contract forbids it. -/
  | deliveryLength
  /-- A host read of `OUT` at an address that the `IW` bits of `OUT_ADDR` cannot carry (R24, R143). Safe: the port has
  no such value. -/
  | addressWidth
  deriving DecidableEq, Repr

/-- The state of the swipe core. -/
structure State where
  /-- `PHASE` (R31). -/
  phase : Phase
  /-- `DONE` (R33). -/
  done : Bool
  /-- `CANCEL_REQ` (R34). -/
  cancelReq : Bool
  /-- `WAIT_BLK`, which drives `BLK_REQ` (R35). -/
  waitBlk : Bool
  /-- `RESULT_CODE` (R36). -/
  resultCode : ResultCode
  /-- `RESULT_LEN` (R37). -/
  resultLen : Nat
  /-- `PWIN`, oldest entry first (R40). -/
  pwin : List Nat
  /-- `PRIME_CNT` (R41). -/
  primeCnt : Nat
  /-- `BIAS` (R42). -/
  bias : Int
  /-- `ACT_CNT` (R44). -/
  actCnt : Nat
  /-- `DET_J` (R45). -/
  detJ : Nat
  /-- `SIGN`: false searches +1, true searches −1 (R46). -/
  sign : Bool
  /-- `THR10`: the threshold times `Params.thrScale`, which is 10 by default (R47). -/
  thr : Nat
  /-- `PEAK` (R48). -/
  peak : Nat
  /-- `PEAK_IDX` (R49). -/
  peakIdx : Nat
  /-- `PREV_IDX` (R50). -/
  prevIdx : Nat
  /-- `HAVE_PREV` (R50). -/
  havePrev : Bool
  /-- `CWIN`, oldest entry first, in half-sample units (R51). -/
  cwin : List Nat
  /-- `REC_I` (R52). -/
  recI : Nat
  /-- `FR_K` (R53). -/
  frK : Nat
  /-- `DIR`: true for a reversed swipe (R54). -/
  dir : Bool
  /-- `DEC_J` (R55). -/
  decJ : Nat
  /-- `ACC`, storage of its own (R56, R336). -/
  acc : Symbol
  /-- `WAVE_LEN` (R57). -/
  waveLen : Nat
  /-- `IVL_CNT` (R57). -/
  ivlCnt : Nat
  /-- `BIT_CNT` (R57). -/
  bitCnt : Nat
  /-- `SYM_CNT` (R57). -/
  symCnt : Nat
  /-- `OUT_LEN` (R57). -/
  outLen : Nat
  /-- `BLK` (R71). -/
  blk : Buffer RawSample
  /-- `IDLE_BUF` (R72). -/
  idleBuf : Buffer Int
  /-- `ACT_BUF` (R73). -/
  actBuf : Buffer Int
  /-- `WAVE` (R74). -/
  wave : Buffer Int
  /-- `IVL` (R79). -/
  ivl : Buffer Nat
  /-- `BITS` (R79, R91). -/
  bits : Buffer Bool
  /-- `SYMS` (R79). -/
  syms : Buffer Symbol
  /-- `OUT` (R79, R89). -/
  out : Buffer Byte
  /-- The model's: the requested block is in `BLK` and the step that requested it has not resumed (R75, log 6). -/
  blkHere : Bool
  /-- The model's: the entry step of the current stage has been taken (R138, R139, log 7). -/
  entered : Bool
  /-- The model's: the moves the agents outside still make, oldest first (log 4). -/
  inputs : List Move
  /-- The model's: what the host's last read returned (log 19). -/
  hostSaw : HostView
  /-- The model's: the index of the next free byte (log 3). -/
  freeCnt : Nat
  deriving DecidableEq, Repr

/-- The state after reset of a block with parameters `P` (R330). `PHASE`, `DONE`, `CANCEL_REQ`, `WAIT_BLK`,
`RESULT_CODE` and `RESULT_LEN` are the rule's; every other register is unspecified there and holds zero here
(DESIGN CHOICE, unsafe, log 1); no buffer lists an element (log 2). -/
def State.resetFor (P : Params) : State where
  phase := .idle
  done := false
  cancelReq := false
  waitBlk := false
  resultCode := .ok
  resultLen := 0
  pwin := List.replicate P.powWin 0
  primeCnt := 0
  bias := 0
  actCnt := 0
  detJ := 0
  sign := false
  thr := 0
  peak := 0
  peakIdx := 0
  prevIdx := 0
  havePrev := false
  cwin := List.replicate P.clkWin 0
  recI := 0
  frK := 0
  dir := false
  decJ := 0
  acc := 0#5
  waveLen := 0
  ivlCnt := 0
  bitCnt := 0
  symCnt := 0
  outLen := 0
  blk := []
  idleBuf := []
  actBuf := []
  wave := []
  ivl := []
  bits := []
  syms := []
  out := []
  blkHere := false
  entered := false
  inputs := []
  hostSaw := .nothing
  freeCnt := 0

/-- The machine right after reset, with the default parameters (R330). -/
def State.reset : State :=
  State.resetFor Config.params

end Sys2Proof.Machine
end

