-- ==== Sys2Proof/Machine/Operands.lean ====
section
/-! DEFINITION. How the core reads its operands: the fields of a symbol word (spec/30_encoding.md rules R103 to
R108), the candidate word the framer assembles from five bits (R91, R223), the raw sample assembled from two
bytes (R76), and the width of an index (R24, R143). -/

namespace Sys2Proof.Machine

/-- popcount of a symbol word (R27). -/
def popcount (w : Symbol) : Nat :=
  (w.getLsbD 0).toNat + (w.getLsbD 1).toNat + (w.getLsbD 2).toNat + (w.getLsbD 3).toNat + (w.getLsbD 4).toNat

/-- A word is valid when its popcount is odd (R104). -/
def oddParity (w : Symbol) : Bool :=
  popcount w % 2 == 1

/-- The data bits `SYM[3:0]`, d0 least significant (R103, R105). -/
def dataBits (w : Symbol) : BitVec 4 :=
  w.extractLsb' 0 4

/-- The character of a word: `P_CHAR_OFFSET` plus the value of its data bits; the parity bit has no part (R105,
R106, R241). -/
def charOf (w : Symbol) : Byte :=
  Config.charOffset + (dataBits w).setWidth 8

/-- The character `;` of the start sentinel (R107). -/
def startChar : Byte := 0x3B#8

/-- The character `?` of the end sentinel (R107). -/
def endChar : Byte := 0x3F#8

/-- Bit reversal: `rev(SYM)[k] = SYM[4 − k]` (R108). -/
def rev (w : Symbol) : Symbol :=
  w.extractLsb' 0 1 ++ w.extractLsb' 1 1 ++ w.extractLsb' 2 1 ++ w.extractLsb' 3 1 ++ w.extractLsb' 4 1

/-- The symbol word of five bits in reception order, the first in bit 0 (R91, R223). -/
def wordOfBits (b0 b1 b2 b3 b4 : Bool) : Symbol :=
  BitVec.ofBool b4 ++ BitVec.ofBool b3 ++ BitVec.ofBool b2 ++ BitVec.ofBool b1 ++ BitVec.ofBool b0

/-- `L_MAX`, the most samples a captured waveform holds (R24): none when `P_MAX_ACTIVE` is infinite. -/
def captureMax (P : Params) : Option Nat :=
  P.maxActive.map fun m => (m + 2) * P.blockN

/-- `IW = ⌈log2(L_MAX + 1)⌉`, the width of an unsigned index able to hold 0 .. `L_MAX` (R24), which for a positive
`L_MAX` is the number of its bits. It is the width of the ports `RESULT_LEN` and `OUT_ADDR` (R143): none when the
capacity is infinite, and an index then has no bound. -/
def indexWidth (P : Params) : Option Nat :=
  (captureMax P).map fun n => n.log2 + 1

/-- A value that a port of `IW` bits can carry (R143). -/
def indexFits (P : Params) (k : Nat) : Bool :=
  match indexWidth P with
  | none => true
  | some w => k < 2 ^ w

/-- The samples of a delivery, little-endian: sample k has byte 2k low and byte 2k+1 high (R76). -/
def samplesOfBytes : List Byte → List RawSample
  | lo :: hi :: rest => (hi ++ lo) :: samplesOfBytes rest
  | _ => []

end Sys2Proof.Machine
end

