-- ==== Sys2Proof/Machine/Flags.lean ====
section
/-! DEFINITION. The computed bits of the machine: the codes of `PHASE` and `RESULT_CODE`, the `STATUS` view
(spec/10_state.md rules R31, R32, R38), and the LRC accumulator's column parity (spec/45_bcd_lrc_decoder.md rules
R245 and R246). The core has no condition codes (R58). -/

namespace Sys2Proof.Machine

/-- The 3-bit code of a phase (R31). -/
def phaseCode (p : Phase) : BitVec 3 :=
  match p with
  | .idle => 0
  | .prime => 1
  | .scan => 2
  | .detect => 3
  | .recover => 4
  | .frame => 5
  | .decode => 6
  | .reserved => 7

/-- The 3-bit code of an outcome (R112). -/
def resultBits (c : ResultCode) : BitVec 3 :=
  match c with
  | .ok => 0
  | .emptyCapture => 1
  | .missingStartSentinel => 2
  | .missingEndSentinel => 3
  | .badLrc => 4
  | .cancelled => 5
  | .captureOverflow => 6
  | .reserved => 7

/-- `BUSY`: `PHASE` is not IDLE (R32). -/
def State.busy (s : State) : Bool :=
  s.phase != .idle

/-- The host's view `STATUS` (R38): bits 15:11 and bit 7 read 0. -/
def State.status (s : State) : BitVec 16 :=
  0#5 ++ resultBits s.resultCode ++ 0#1 ++ phaseCode s.phase ++ BitVec.ofBool s.waitBlk ++
    BitVec.ofBool s.cancelReq ++ BitVec.ofBool s.done ++ BitVec.ofBool s.busy

/-- Fold the data columns of a symbol into the accumulator; column 4 is unchanged (R245). -/
def foldData (acc : Symbol) (data : BitVec 4) : Symbol :=
  acc ^^^ data.setWidth 5

/-- Force odd parity on the accumulator: `ACC[4] <- (1 + ACC[0] + ACC[1] + ACC[2] + ACC[3]) mod 2` (R246). -/
def forceParity (acc : Symbol) : Symbol :=
  BitVec.ofBool ((1 + (acc.getLsbD 0).toNat + (acc.getLsbD 1).toNat + (acc.getLsbD 2).toNat +
    (acc.getLsbD 3).toNat) % 2 == 1) ++ dataBits acc

end Sys2Proof.Machine
end

