-- ==== Sys2Proof/Machine/Ops.lean ====
section
/-! DEFINITION. The named operations over the buffers and registers (spec/00_scope.md rules R27 and R28,
spec/20_memory.md), and the one operation that ends an invocation (spec/60_exceptions.md rule R305). -/

namespace Sys2Proof.Machine

/-- What an index of a buffer that nothing has written reads as: 0, a 0 bit, the word 0 (DESIGN CHOICE, unsafe,
log 2). No rule reads such an element (R330). -/
def unwritten {α : Type} [Inhabited α] : α :=
  default

/-- `MemRead(BUF, i)` (R28). -/
def Buffer.read {α : Type} [Inhabited α] (b : Buffer α) (i : Nat) : α :=
  match b with
  | [] => unwritten
  | (a, v) :: rest => if a = i then v else Buffer.read rest i

/-- The cells of a list of elements from an index on, less those that read as unwritten. -/
def Buffer.cellsFrom {α : Type} [Inhabited α] [DecidableEq α] (base : Nat) (vs : List α) : Buffer α :=
  match vs with
  | [] => []
  | v :: rest =>
    if v = unwritten then Buffer.cellsFrom (base + 1) rest else (base, v) :: Buffer.cellsFrom (base + 1) rest

/-- Write consecutive elements from an index on: `BUF[base .. base + n) <- vs` (R28). -/
def Buffer.writeList {α : Type} [Inhabited α] [DecidableEq α] (b : Buffer α) (base : Nat) (vs : List α) : Buffer α :=
  b.filter (fun c => c.1 < base) ++ Buffer.cellsFrom base vs ++ b.filter (fun c => base + vs.length ≤ c.1)

/-- `MemWrite(BUF, i, v)` (R28). -/
def Buffer.write {α : Type} [Inhabited α] [DecidableEq α] (b : Buffer α) (i : Nat) (v : α) : Buffer α :=
  Buffer.writeList b i [v]

/-- The list `BUF[base .. base + n)` (R26). -/
def Buffer.slice {α : Type} [Inhabited α] (b : Buffer α) (base n : Nat) : List α :=
  (List.range n).map (fun k => Buffer.read b (base + k))

/-- The canonical form: indexes strictly rising, no listed element that reads as unwritten (log 2). -/
def Buffer.wf {α : Type} [Inhabited α] [DecidableEq α] (b : Buffer α) : Bool :=
  decide (b.Pairwise (fun x y => x.1 < y.1)) && b.all (fun c => c.2 != unwritten)

/-- The canonical form of all eight buffers (R70). -/
def Memory.wf (s : State) : Bool :=
  Buffer.wf s.blk && Buffer.wf s.idleBuf && Buffer.wf s.actBuf && Buffer.wf s.wave && Buffer.wf s.ivl &&
    Buffer.wf s.bits && Buffer.wf s.syms && Buffer.wf s.out

/-- `push(WIN, v)`: the oldest entry is evicted (R28). -/
def push (win : List Nat) (v : Nat) : List Nat :=
  win.tail ++ [v]

/-- The largest of a list of integers. -/
def maxOf (l : List Int) : Int :=
  match l with
  | [] => 0
  | x :: rest => rest.foldl max x

/-- The smallest of a list of integers. -/
def minOf (l : List Int) : Int :=
  match l with
  | [] => 0
  | x :: rest => rest.foldl min x

/-- The peak-to-peak amplitude `max(L) − min(L)` (R27). -/
def ptp (l : List Int) : Nat :=
  (maxOf l - minOf l).toNat

/-- `floor_div(sum of the list, its length)` (R27): Lean's integer division rounds toward −∞ for a positive
divisor. -/
def floorMean (l : List Int) : Int :=
  l.sum / (l.length : Int)

/-- Raising an outcome ends the invocation (R305): the result registers, `DONE`, `CANCEL_REQ`, `WAIT_BLK` and
`PHASE` are written and no other register or buffer. This is the machine's only exception entry; it saves nothing and
goes nowhere (R315), and there is no return from it (R316): the next accepted START begins again. -/
def State.raise (c : ResultCode) (s : State) : State :=
  { s with
    resultCode := c
    resultLen := if c = .ok then s.outLen else 0
    done := true
    cancelReq := false
    waitBlk := false
    phase := .idle
    blkHere := false
    entered := false }

/-- The hand-off to the next phase (R139): its entry rule runs as the core's next step. -/
def State.handOff (p : Phase) (s : State) : State :=
  { s with phase := p, entered := false }

/-- An accepted START (R131). -/
def State.startInvocation (s : State) : State :=
  { s with
    done := false
    resultCode := .ok
    resultLen := 0
    cancelReq := false
    waitBlk := false
    primeCnt := 0
    bias := 0
    actCnt := 0
    waveLen := 0
    ivlCnt := 0
    bitCnt := 0
    symCnt := 0
    outLen := 0
    phase := .prime
    blkHere := false
    entered := false }

/-- `request_block()`: assert the request (R75). -/
def State.requestBlock (s : State) : State :=
  { s with waitBlk := true }

/-- The Source's delivery: the samples are written to `BLK` and `WAIT_BLK` is cleared in the same step (R75). -/
def State.takeBlock (samples : List RawSample) (s : State) : State :=
  { s with blk := Buffer.writeList s.blk 0 samples, waitBlk := false, blkHere := true }

/-- `append(IVL, x)` (R28). -/
def State.appendIvl (x : Nat) (s : State) : State :=
  { s with ivl := Buffer.write s.ivl s.ivlCnt x, ivlCnt := s.ivlCnt + 1 }

/-- `append(BITS, b)` (R28). -/
def State.appendBit (b : Bool) (s : State) : State :=
  { s with bits := Buffer.write s.bits s.bitCnt b, bitCnt := s.bitCnt + 1 }

/-- `append(SYMS, w)` (R28). -/
def State.appendSym (w : Symbol) (s : State) : State :=
  { s with syms := Buffer.write s.syms s.symCnt w, symCnt := s.symCnt + 1 }

/-- `append(OUT, c)` (R28). -/
def State.appendOut (c : Byte) (s : State) : State :=
  { s with out := Buffer.write s.out s.outLen c, outLen := s.outLen + 1 }

/-- A host read of `OUT[k]` (R89): the k-th character while `DONE` = 1 and k is below `RESULT_LEN`, else a free
byte (log 3). -/
def State.hostOut (k : Nat) (s : State) : Byte :=
  if s.done && k < s.resultLen then Buffer.read s.out k else Config.freeOutByte s.freeCnt

end Sys2Proof.Machine
end

