-- ==== Sys2Proof/Machine/Commands.lean ====
section
/-! DEFINITION. The meanings of the four command codes (spec/40_control.md rules R131 to R135). A command is applied
whatever `WAIT_BLK` is and in every phase (R130, R318). -/

namespace Sys2Proof.Machine

/-- NOP: no effect (R134). -/
def execNop (s : State) : Host.Outcome State Fault Refusal :=
  .next s

/-- START: accepted in IDLE (R131), dropped otherwise (R132). -/
def execStart (s : State) : Host.Outcome State Fault Refusal :=
  if s.phase = .idle then .next s.startInvocation else .next s

/-- CANCEL: latched in PRIME and SCAN, without effect elsewhere (R133). -/
def execCancel (s : State) : Host.Outcome State Fault Refusal :=
  if s.phase = .prime ∨ s.phase = .scan then .next { s with cancelReq := true } else .next s

/-- The reserved code: no effect on any register or buffer (R135, log 14). -/
def execReservedCmd (s : State) : Host.Outcome State Fault Refusal :=
  .next s

end Sys2Proof.Machine
end

