-- ==== Sys2Proof/Machine/Framer.lean ====
section
/-! DEFINITION. The Byte Framer, phase FRAME (spec/44_byte_framer.md). A candidate word is read by `candidate`; what
it does is the meaning of that symbol word: `State.frameCandidate` for each of the 32 words (R223, R224, R226). -/

namespace Sys2Proof.Machine

/-- The first index at or after `k` whose bit is 1, or `k + n` when the next `n` bits are 0 (R221). -/
def skipZeros (b : Buffer Bool) (n k : Nat) : Nat :=
  match n with
  | 0 => k
  | m + 1 => if Buffer.read b k then k else skipZeros b m (k + 1)

/-- Entry with at least one bit: the run-out discard, in one step (R221). -/
def frameEntry (s : State) : State :=
  { s with symCnt := 0, frK := skipZeros s.bits s.bitCnt 0, entered := true }

/-- Fewer than five bits remain (R222). -/
def tooFewBits (s : State) : Bool :=
  s.bitCnt < s.frK + 5

/-- The candidate word `W` (R223). -/
def candidate (s : State) : Symbol :=
  wordOfBits (Buffer.read s.bits s.frK) (Buffer.read s.bits (s.frK + 1)) (Buffer.read s.bits (s.frK + 2))
    (Buffer.read s.bits (s.frK + 3)) (Buffer.read s.bits (s.frK + 4))

/-- Accept a symbol (R224). -/
def State.acceptSymbol (w : Symbol) (s : State) : State :=
  { s.appendSym w with frK := s.frK + 5 }

/-- What a candidate word does: an odd-parity word is stored (R224), an even-parity word ends framing (R223, R226).
DEDUCED (log 23): these steps are followed also where they contradict R227(d). A reversed swipe whose LRC has parity bit 0
is framed out of phase, and the decoder may still meet the character of a start sentinel: the swipe `;9:?` (LRC 0x07),
reversed, gives the symbols 0x1F, 0x1F, 0x1A, and `rev` 0x1A is `;` (R243), so that BadLRC results. -/
def State.frameCandidate (w : Symbol) (s : State) : State :=
  if oddParity w then s.acceptSymbol w else s.handOff .decode

/-- A core step in FRAME that reads no candidate: the entry step, or the short read (R220 to R222). -/
def frameStage (s : State) : State :=
  if s.entered then s.handOff .decode
  else if s.bitCnt = 0 then s.raise .emptyCapture
  else frameEntry s

end Sys2Proof.Machine
end

