-- ==== Sys2Proof/Machine/Decoder.lean ====
section
/-! DEFINITION. The BCD / LRC Decoder, phase DECODE (spec/45_bcd_lrc_decoder.md), and the shared shapes of a symbol
word's meaning. A word is read by the framer as a candidate, by the decoder's entry step as `SYMS[0]`, and by its
body steps as `S[DEC_J]` (spec/46_symbol_codes.md). -/

namespace Sys2Proof.Machine

/-- `S[i]`, the decoded sequence seen through `DIR` (R242, R243). -/
def decodedSym (s : State) (i : Nat) : Symbol :=
  if s.dir then rev (Buffer.read s.syms (s.symCnt - 1 - i)) else Buffer.read s.syms i

/-- Accumulator initialisation (R244): `ACC` takes a copy of all five bits. -/
def State.initAcc (w : Symbol) (s : State) : State :=
  { s with acc := w, decJ := 1, outLen := 0, entered := true }

/-- Forward direction (R242). -/
def State.enterForward (w : Symbol) (s : State) : State :=
  State.initAcc w { s with dir := false }

/-- Reversed direction (R243): `S[0]` is the reversal of the last symbol. -/
def State.enterReversed (s : State) : State :=
  let first := rev (Buffer.read s.syms (s.symCnt - 1))
  if charOf first = startChar then State.initAcc first { s with dir := true }
  else State.raise .missingStartSentinel { s with dir := true }

/-- The direction check on the word at `SYMS[0]`: by its character only (R241 to R243). -/
def State.enterDecode (w : Symbol) (s : State) : State :=
  if charOf w = startChar then s.enterForward w else s.enterReversed

/-- Data character (R245, R248): fold the data bits, output the character, advance. -/
def State.takeData (data : BitVec 4) (c : Byte) (s : State) : State :=
  { s.appendOut c with acc := foldData s.acc data, decJ := s.decJ + 1 }

/-- The LRC check (R247), after parity forcing: no symbol to compare, or another word, is BadLRC. -/
def State.checkLrc (s : State) : State :=
  if s.symCnt ≤ s.decJ + 1 then s.raise .badLrc
  else if decodedSym s (s.decJ + 1) ≠ s.acc then s.raise .badLrc
  else s.raise .ok

/-- End sentinel (R245 to R247): fold the data bits, force the parity, check the LRC. -/
def State.takeEnd (data : BitVec 4) (s : State) : State :=
  State.checkLrc { s with acc := forceParity (foldData s.acc data) }

/-- A body symbol, by its character only (R245). -/
def State.takeSymbol (w : Symbol) (s : State) : State :=
  if charOf w = endChar then s.takeEnd (dataBits w) else s.takeData (dataBits w) (charOf w)

/-- Who reads the next symbol word. -/
inductive SymbolReader where
  | framer
  | decoderEntry
  | decoderBody
  | nobody
  deriving DecidableEq, Repr

/-- The reader of a symbol word in a state: the framer and the decoder are the only ones (R3). -/
def symbolReader (s : State) : SymbolReader :=
  match s.phase, s.entered with
  | .frame, true => .framer
  | .decode, false => .decoderEntry
  | .decode, true => .decoderBody
  | _, _ => .nobody

/-- The meaning of an odd-parity word other than `;` and `?`: stored by the framer (R224), the cause of a reversal at
`SYMS[0]` (R243), a data character in the body (R270 to R284). -/
def dataWord (w : Symbol) (data : BitVec 4) (c : Byte) (s : State) : Host.Outcome State Fault Refusal :=
  match symbolReader s with
  | .framer => .next (s.frameCandidate w)
  | .decoderEntry => .next s.enterReversed
  | .decoderBody => .next (s.takeData data c)
  | .nobody => .fault .symbolNotRead

/-- The meaning of an even-parity word: it ends framing (R223, R226); the decoder, which never meets one in a run,
would read it by its character (R241, R256; log 13). -/
def invalidWord (w : Symbol) (s : State) : Host.Outcome State Fault Refusal :=
  match symbolReader s with
  | .framer => .next (s.frameCandidate w)
  | .decoderEntry => .next (s.enterDecode w)
  | .decoderBody => .next (s.takeSymbol w)
  | .nobody => .fault .symbolNotRead

/-- A core step in DECODE that reads no symbol: an empty sequence at the entry (R240), an exhausted one in the body
(R245). -/
def decodeStage (s : State) : State :=
  if s.entered then s.raise .missingEndSentinel else s.raise .emptyCapture

end Sys2Proof.Machine
end

