-- ==== Sys2Proof/Machine/InvalidWords.lean ====
section
/-! DEFINITION. The meanings of the sixteen even-parity symbol words (spec/30_encoding.md rule R126,
spec/44_byte_framer.md rules R223 and R226): as a candidate of the framer each ends framing. Should one stand in
`SYMS`, the decoder reads its character as it reads any word's (R241, R256; log 13). -/

namespace Sys2Proof.Machine

/-- `INVALID_0x00`: the word 00000 (R226). -/
def execInvalid00 (s : State) : Host.Outcome State Fault Refusal :=
  invalidWord 0x00#5 s

/-- `INVALID_0x03`: the word 00011 (R226). -/
def execInvalid03 (s : State) : Host.Outcome State Fault Refusal :=
  invalidWord 0x03#5 s

/-- `INVALID_0x05`: the word 00101 (R226). -/
def execInvalid05 (s : State) : Host.Outcome State Fault Refusal :=
  invalidWord 0x05#5 s

/-- `INVALID_0x06`: the word 00110 (R226). -/
def execInvalid06 (s : State) : Host.Outcome State Fault Refusal :=
  invalidWord 0x06#5 s

/-- `INVALID_0x09`: the word 01001 (R226). -/
def execInvalid09 (s : State) : Host.Outcome State Fault Refusal :=
  invalidWord 0x09#5 s

/-- `INVALID_0x0A`: the word 01010 (R226). -/
def execInvalid0A (s : State) : Host.Outcome State Fault Refusal :=
  invalidWord 0x0A#5 s

/-- `INVALID_0x0C`: the word 01100 (R226). -/
def execInvalid0C (s : State) : Host.Outcome State Fault Refusal :=
  invalidWord 0x0C#5 s

/-- `INVALID_0x0F`: the word 01111 (R226). -/
def execInvalid0F (s : State) : Host.Outcome State Fault Refusal :=
  invalidWord 0x0F#5 s

/-- `INVALID_0x11`: the word 10001 (R226). -/
def execInvalid11 (s : State) : Host.Outcome State Fault Refusal :=
  invalidWord 0x11#5 s

/-- `INVALID_0x12`: the word 10010 (R226). -/
def execInvalid12 (s : State) : Host.Outcome State Fault Refusal :=
  invalidWord 0x12#5 s

/-- `INVALID_0x14`: the word 10100 (R226). -/
def execInvalid14 (s : State) : Host.Outcome State Fault Refusal :=
  invalidWord 0x14#5 s

/-- `INVALID_0x17`: the word 10111 (R226). -/
def execInvalid17 (s : State) : Host.Outcome State Fault Refusal :=
  invalidWord 0x17#5 s

/-- `INVALID_0x18`: the word 11000 (R226). -/
def execInvalid18 (s : State) : Host.Outcome State Fault Refusal :=
  invalidWord 0x18#5 s

/-- `INVALID_0x1B`: the word 11011 (R226). -/
def execInvalid1B (s : State) : Host.Outcome State Fault Refusal :=
  invalidWord 0x1B#5 s

/-- `INVALID_0x1D`: the word 11101 (R226). -/
def execInvalid1D (s : State) : Host.Outcome State Fault Refusal :=
  invalidWord 0x1D#5 s

/-- `INVALID_0x1E`: the word 11110 (R226). -/
def execInvalid1E (s : State) : Host.Outcome State Fault Refusal :=
  invalidWord 0x1E#5 s

end Sys2Proof.Machine
end

