-- ==== Sys2Proof/Machine/SymbolWords.lean ====
section
/-! DEFINITION. The meanings of the sixteen valid symbol words, spec/46_symbol_codes.md rules R270 to R285, each
with the constants its own rule states: the word, the data bits it folds into `ACC` and the character it outputs. -/

namespace Sys2Proof.Machine

/-- `0` (R270): word 0x10, data bits 0000, character 0x30. -/
def execDigit0 (s : State) : Host.Outcome State Fault Refusal :=
  dataWord 0x10#5 0b0000#4 0x30#8 s

/-- `1` (R271): word 0x01, data bits 0001, character 0x31. -/
def execDigit1 (s : State) : Host.Outcome State Fault Refusal :=
  dataWord 0x01#5 0b0001#4 0x31#8 s

/-- `2` (R272): word 0x02, data bits 0010, character 0x32. -/
def execDigit2 (s : State) : Host.Outcome State Fault Refusal :=
  dataWord 0x02#5 0b0010#4 0x32#8 s

/-- `3` (R273): word 0x13, data bits 0011, character 0x33. -/
def execDigit3 (s : State) : Host.Outcome State Fault Refusal :=
  dataWord 0x13#5 0b0011#4 0x33#8 s

/-- `4` (R274): word 0x04, data bits 0100, character 0x34. -/
def execDigit4 (s : State) : Host.Outcome State Fault Refusal :=
  dataWord 0x04#5 0b0100#4 0x34#8 s

/-- `5` (R275): word 0x15, data bits 0101, character 0x35. -/
def execDigit5 (s : State) : Host.Outcome State Fault Refusal :=
  dataWord 0x15#5 0b0101#4 0x35#8 s

/-- `6` (R276): word 0x16, data bits 0110, character 0x36. -/
def execDigit6 (s : State) : Host.Outcome State Fault Refusal :=
  dataWord 0x16#5 0b0110#4 0x36#8 s

/-- `7` (R277): word 0x07, data bits 0111, character 0x37. -/
def execDigit7 (s : State) : Host.Outcome State Fault Refusal :=
  dataWord 0x07#5 0b0111#4 0x37#8 s

/-- `8` (R278): word 0x08, data bits 1000, character 0x38. -/
def execDigit8 (s : State) : Host.Outcome State Fault Refusal :=
  dataWord 0x08#5 0b1000#4 0x38#8 s

/-- `9` (R279): word 0x19, data bits 1001, character 0x39. -/
def execDigit9 (s : State) : Host.Outcome State Fault Refusal :=
  dataWord 0x19#5 0b1001#4 0x39#8 s

/-- `:` (R280): word 0x1A, data bits 1010, character 0x3A. -/
def execColon (s : State) : Host.Outcome State Fault Refusal :=
  dataWord 0x1A#5 0b1010#4 0x3A#8 s

/-- `;` (R281): at `S[0]` it starts the decode with `ACC` = 0x0B; in the body it is a data character, 1011 and
0x3B. -/
def execStartSentinel (s : State) : Host.Outcome State Fault Refusal :=
  match symbolReader s with
  | .framer => .next (s.frameCandidate 0x0B#5)
  | .decoderEntry => .next (s.enterForward 0x0B#5)
  | .decoderBody => .next (s.takeData 0b1011#4 0x3B#8)
  | .nobody => .fault .symbolNotRead

/-- `<` (R282): word 0x1C, data bits 1100, character 0x3C. -/
def execLess (s : State) : Host.Outcome State Fault Refusal :=
  dataWord 0x1C#5 0b1100#4 0x3C#8 s

/-- `=` (R283): word 0x0D, data bits 1101, character 0x3D. -/
def execFieldSep (s : State) : Host.Outcome State Fault Refusal :=
  dataWord 0x0D#5 0b1101#4 0x3D#8 s

/-- `>` (R284): word 0x0E, data bits 1110, character 0x3E. -/
def execGreater (s : State) : Host.Outcome State Fault Refusal :=
  dataWord 0x0E#5 0b1110#4 0x3E#8 s

/-- `?` (R285): in the body it folds 1111 into `ACC`, forces its parity and checks the LRC. -/
def execEndSentinel (s : State) : Host.Outcome State Fault Refusal :=
  match symbolReader s with
  | .framer => .next (s.frameCandidate 0x1F#5)
  | .decoderEntry => .next s.enterReversed
  | .decoderBody => .next (s.takeEnd 0b1111#4)
  | .nobody => .fault .symbolNotRead

end Sys2Proof.Machine
end

