-- ==== Sys2Proof/Machine/Dispatch.lean ====
section
/-! DEFINITION. The dispatch of an instruction to its meaning, one arm per constructor. -/

namespace Sys2Proof.Machine

/-- The effect of one instruction on a state. -/
def exec (i : Instr) (s : State) : Host.Outcome State Fault Refusal :=
  match i with
  | .digit0 => Sys2Proof.Machine.execDigit0 s
  | .digit1 => Sys2Proof.Machine.execDigit1 s
  | .digit2 => Sys2Proof.Machine.execDigit2 s
  | .digit3 => Sys2Proof.Machine.execDigit3 s
  | .digit4 => Sys2Proof.Machine.execDigit4 s
  | .digit5 => Sys2Proof.Machine.execDigit5 s
  | .digit6 => Sys2Proof.Machine.execDigit6 s
  | .digit7 => Sys2Proof.Machine.execDigit7 s
  | .digit8 => Sys2Proof.Machine.execDigit8 s
  | .digit9 => Sys2Proof.Machine.execDigit9 s
  | .colon => Sys2Proof.Machine.execColon s
  | .startSentinel => Sys2Proof.Machine.execStartSentinel s
  | .less => Sys2Proof.Machine.execLess s
  | .fieldSep => Sys2Proof.Machine.execFieldSep s
  | .greater => Sys2Proof.Machine.execGreater s
  | .endSentinel => Sys2Proof.Machine.execEndSentinel s
  | .invalid00 => Sys2Proof.Machine.execInvalid00 s
  | .invalid03 => Sys2Proof.Machine.execInvalid03 s
  | .invalid05 => Sys2Proof.Machine.execInvalid05 s
  | .invalid06 => Sys2Proof.Machine.execInvalid06 s
  | .invalid09 => Sys2Proof.Machine.execInvalid09 s
  | .invalid0A => Sys2Proof.Machine.execInvalid0A s
  | .invalid0C => Sys2Proof.Machine.execInvalid0C s
  | .invalid0F => Sys2Proof.Machine.execInvalid0F s
  | .invalid11 => Sys2Proof.Machine.execInvalid11 s
  | .invalid12 => Sys2Proof.Machine.execInvalid12 s
  | .invalid14 => Sys2Proof.Machine.execInvalid14 s
  | .invalid17 => Sys2Proof.Machine.execInvalid17 s
  | .invalid18 => Sys2Proof.Machine.execInvalid18 s
  | .invalid1B => Sys2Proof.Machine.execInvalid1B s
  | .invalid1D => Sys2Proof.Machine.execInvalid1D s
  | .invalid1E => Sys2Proof.Machine.execInvalid1E s
  | .nop => Sys2Proof.Machine.execNop s
  | .start => Sys2Proof.Machine.execStart s
  | .cancel => Sys2Proof.Machine.execCancel s
  | .reservedCmd => Sys2Proof.Machine.execReservedCmd s

end Sys2Proof.Machine
end

