-- ==== Sys2Proof/Decode.lean ====
section
/-! DEFINITION. Decoding of the two code spaces, written from the tables of spec/30_encoding.md rules R109, R110 and
R126, and the encoder after it. Every 5-bit word and every 2-bit code has a meaning (R127), so the word decoders
are total; `decode` reads a byte-wide unit and rejects by name what has more bits than its space. -/

namespace Sys2Proof

/-- Why a byte-wide unit is no word of its space. -/
inductive DecodeError where
  /-- Bits above the five of a symbol word are set (R103). -/
  | symbolWordTooWide
  /-- Bits above the two of a command code are set (R110). -/
  | commandCodeTooWide
  deriving DecidableEq, Repr

/-- The symbol code map by word, 0x00 first: the odd-parity words are those of R109, the even-parity ones those of
R126. -/
def symbolTable : Vector Instr 32 :=
  #v[.invalid00, .digit1, .digit2, .invalid03, .digit4, .invalid05, .invalid06, .digit7,
    .digit8, .invalid09, .invalid0A, .startSentinel, .invalid0C, .fieldSep, .greater, .invalid0F,
    .digit0, .invalid11, .invalid12, .digit3, .invalid14, .digit5, .digit6, .invalid17,
    .invalid18, .digit9, .colon, .invalid1B, .less, .invalid1D, .invalid1E, .endSentinel]

/-- The instruction a symbol word stands for (R109, R126). -/
def decodeSymbol (w : Symbol) : Instr :=
  symbolTable[w.toNat]

/-- The instruction a command code stands for (R110). -/
def decodeCommand (c : Command) : Instr :=
  match c.toFin with
  | 0 => .nop
  | 1 => .start
  | 2 => .cancel
  | 3 => .reservedCmd

/-- Decode a byte-wide unit of a code space: total, and rejecting by name. -/
def decode (sp : Space) (b : Byte) : Except DecodeError Instr :=
  match sp with
  | .symbol => if b.toNat < 32 then .ok (decodeSymbol (b.setWidth 5)) else .error .symbolWordTooWide
  | .command => if b.toNat < 4 then .ok (decodeCommand (b.setWidth 2)) else .error .commandCodeTooWide

/-- The code space of an instruction: the `format` column of the table. -/
def spaceOf (i : Instr) : Space :=
  match i with
  | .digit0 => .symbol
  | .digit1 => .symbol
  | .digit2 => .symbol
  | .digit3 => .symbol
  | .digit4 => .symbol
  | .digit5 => .symbol
  | .digit6 => .symbol
  | .digit7 => .symbol
  | .digit8 => .symbol
  | .digit9 => .symbol
  | .colon => .symbol
  | .startSentinel => .symbol
  | .less => .symbol
  | .fieldSep => .symbol
  | .greater => .symbol
  | .endSentinel => .symbol
  | .invalid00 => .symbol
  | .invalid03 => .symbol
  | .invalid05 => .symbol
  | .invalid06 => .symbol
  | .invalid09 => .symbol
  | .invalid0A => .symbol
  | .invalid0C => .symbol
  | .invalid0F => .symbol
  | .invalid11 => .symbol
  | .invalid12 => .symbol
  | .invalid14 => .symbol
  | .invalid17 => .symbol
  | .invalid18 => .symbol
  | .invalid1B => .symbol
  | .invalid1D => .symbol
  | .invalid1E => .symbol
  | .nop => .command
  | .start => .command
  | .cancel => .command
  | .reservedCmd => .command

/-- The word of an instruction: the `match` column of the table (R109, R126, R110), in a byte-wide unit. -/
def encode (i : Instr) : Byte :=
  match i with
  | .digit0 => 0x10#8
  | .digit1 => 0x01#8
  | .digit2 => 0x02#8
  | .digit3 => 0x13#8
  | .digit4 => 0x04#8
  | .digit5 => 0x15#8
  | .digit6 => 0x16#8
  | .digit7 => 0x07#8
  | .digit8 => 0x08#8
  | .digit9 => 0x19#8
  | .colon => 0x1A#8
  | .startSentinel => 0x0B#8
  | .less => 0x1C#8
  | .fieldSep => 0x0D#8
  | .greater => 0x0E#8
  | .endSentinel => 0x1F#8
  | .invalid00 => 0x00#8
  | .invalid03 => 0x03#8
  | .invalid05 => 0x05#8
  | .invalid06 => 0x06#8
  | .invalid09 => 0x09#8
  | .invalid0A => 0x0A#8
  | .invalid0C => 0x0C#8
  | .invalid0F => 0x0F#8
  | .invalid11 => 0x11#8
  | .invalid12 => 0x12#8
  | .invalid14 => 0x14#8
  | .invalid17 => 0x17#8
  | .invalid18 => 0x18#8
  | .invalid1B => 0x1B#8
  | .invalid1D => 0x1D#8
  | .invalid1E => 0x1E#8
  | .nop => 0x00#8
  | .start => 0x01#8
  | .cancel => 0x02#8
  | .reservedCmd => 0x03#8

/-- The code space a table word of `nbits` bits is read in (log 17): the table numbers both spaces from bit 0 and
gives no bit that tells them apart, so only a word too short for a symbol (less than five bits) is a command. -/
def tableSpace (nbits : Nat) : Space :=
  if nbits < 5 then .command else .symbol

/-- The byte-wide unit a table word is laid out as: the low five bits of a symbol word (mask 0x1F), the low two of
a command code (mask 0x3); the hardware stores no others (R103, R110; log 17). -/
def tableUnit (nbits w : Nat) : Byte :=
  match tableSpace nbits with
  | .symbol => BitVec.ofNat 8 (w % 32)
  | .command => BitVec.ofNat 8 (w % 4)

/-- What the decoder reads from a table word of `nbits` bits with the value `w`. -/
def decodeTableWord (nbits w : Nat) : Option Instr :=
  match decode (tableSpace nbits) (tableUnit nbits w) with
  | .ok i => some i
  | .error _ => none

end Sys2Proof
end

