-- ==== Sys2Proof/Machine/Fetch.lean ====
section
/-! DEFINITION. The symbol word the core's next step reads. The core fetches no program (spec/20_memory.md rule R85):
the encoded words it acts on are the symbol words its framer and decoder read from the data (spec/00_scope.md rule R3
(a)); the codes of the host (R3 (b)) come from the `CMD` port. -/

namespace Sys2Proof.Machine

/-- The symbol word the core's next step reads, if it reads one: a candidate of five bits (R222, R223), `SYMS[0]` at
the entry of DECODE (R240, R242, R243), `S[DEC_J]` in the body (R245). While a request is outstanding the core takes
no step (R75). -/
def fetchWord (s : State) : Option Symbol :=
  if s.waitBlk then none
  else
    match symbolReader s with
    | .framer => if tooFewBits s then none else some (candidate s)
    | .decoderEntry => if s.symCnt = 0 then none else some (Buffer.read s.syms 0)
    | .decoderBody => if s.symCnt ≤ s.decJ then none else some (decodedSym s s.decJ)
    | .nobody => none

end Sys2Proof.Machine
end

