-- ==== Sys2Proof/Machine/Detector.lean ====
section
/-! DEFINITION. The Transition Detector, phase DETECT (spec/42_transition_detector.md). The threshold is held as the
integer `Params.thrScale` times `THR`, which is `THR10` by default (R47, D9, log 16). -/

namespace Sys2Proof.Machine

/-- The common denominator of the two threshold factors: 10 by default (R47). -/
def thrScale (P : Params) : Nat :=
  P.initFactor.den * P.nextFactor.den

/-- The initial threshold, scaled: `8·ptp` by default (R181). -/
def initThr (P : Params) (s : State) : Nat :=
  P.initFactor.num * P.nextFactor.den * ptp (Buffer.slice s.wave 0 (min P.initWindow s.waveLen))

/-- The threshold after a peak, scaled: `5·PEAK` by default (R184). -/
def nextThr (P : Params) (s : State) : Nat :=
  P.nextFactor.num * P.initFactor.den * s.peak

/-- Entry with an empty waveform (R180). -/
def detectEmpty (s : State) : State :=
  { s.handOff .recover with ivlCnt := 0 }

/-- Entry with a non-empty waveform (R181). -/
def detectEntry (P : Params) (s : State) : State :=
  { s with
    ivlCnt := 0
    detJ := 0
    sign := false
    peak := 0
    havePrev := false
    thr := initThr P s
    entered := true }

/-- `v = WAVE[DET_J] × SIGN` (R182). -/
def signedSample (s : State) : Int :=
  if s.sign then -(Buffer.read s.wave s.detJ) else Buffer.read s.wave s.detJ

/-- `v > THR` (R182): `10·v > THR10` by default. -/
def aboveThr (P : Params) (s : State) : Bool :=
  (s.thr : Int) < (thrScale P : Int) * signedSample s

/-- Sample inside a polarity run (R183). -/
def runSample (s : State) : State :=
  if (s.peak : Int) < signedSample s then { s with peak := (signedSample s).toNat, peakIdx := s.detJ } else s

/-- The interval output of a transition, if one has been recorded before (R184). -/
def emitInterval (s : State) : State :=
  if s.havePrev then s.appendIvl (s.peakIdx - s.prevIdx) else s

/-- End of a polarity run: a transition at `PEAK_IDX` (R184). -/
def endRun (P : Params) (s : State) : State :=
  { emitInterval s with
    prevIdx := s.peakIdx
    havePrev := true
    sign := !s.sign
    thr := nextThr P s
    peak := 0 }

/-- Advance and exit (R186). A run still open at the end is discarded. -/
def detectAdvance (s : State) : State :=
  if s.detJ + 1 = s.waveLen then { s.handOff .recover with detJ := s.detJ + 1 } else { s with detJ := s.detJ + 1 }

/-- Sample step (R182). -/
def detectSample (P : Params) (s : State) : Host.Outcome State Fault Refusal :=
  if s.waveLen ≤ s.detJ then .fault .readPastEnd
  else if aboveThr P s then .next (detectAdvance (runSample s))
  else if s.peak ≠ 0 then
    if s.havePrev && s.peakIdx < s.prevIdx then .fault .negativeInterval
    else .next (detectAdvance (endRun P s))
  else .next (detectAdvance s)

/-- A core step in DETECT: the entry step, then one sample a step (R180 to R186). -/
def detectStep (P : Params) (s : State) : Host.Outcome State Fault Refusal :=
  if s.entered then detectSample P s
  else if s.waveLen = 0 then .next (detectEmpty s)
  else .next (detectEntry P s)

end Sys2Proof.Machine
end

