-- ==== Sys2Proof/Machine/Recoverer.lean ====
section
/-! DEFINITION. The Bit Recoverer, phase RECOVER (spec/43_bit_recoverer.md). The clock window holds half-sample units
(R51). The discarded intervals are never read (R201). -/

namespace Sys2Proof.Machine

/-- Intervals consumed before the first classification: `P_DISCARD + P_CLK_WIN`, 9 by default (R200). -/
def leadIn (P : Params) : Nat :=
  P.discard + P.clkWin

/-- Entry with too few intervals (R200). -/
def recoverTooFew (s : State) : State :=
  { s.handOff .frame with bitCnt := 0 }

/-- Clock seed (R202). -/
def recoverSeed (P : Params) (s : State) : State :=
  { s with
    cwin := Buffer.slice s.ivl P.discard P.clkWin
    recI := 0
    bitCnt := 0
    entered := true }

/-- `x = R[REC_I]`, the next unconsumed interval (R203). -/
def nextInterval (P : Params) (s : State) : Nat :=
  Buffer.read s.ivl (leadIn P + s.recI)

/-- The long test `x > P_LONG_FACTOR × SC / (2 × P_CLK_WIN)`, cross-multiplied (R203): `16·x > 3·SC` by default. -/
def isLong (P : Params) (x sc : Nat) : Bool :=
  P.longFactor.num * sc < x * (2 * P.clkWin * P.longFactor.den)

/-- Long cell: bit 0 (R204). The interval just classified is pushed, halved: x half-units (C5). -/
def longCell (x : Nat) (s : State) : State :=
  { s.appendBit false with cwin := push s.cwin x, recI := s.recI + 1 }

/-- Two short cells: bit 1 (R205). The second interval is consumed without being examined. -/
def shortCells (x : Nat) (s : State) : State :=
  { s.appendBit true with cwin := push s.cwin (2 * x), recI := s.recI + 2 }

/-- Long-or-short test (R203). -/
def classify (P : Params) (s : State) : State :=
  if isLong P (nextInterval P s) s.cwin.sum then longCell (nextInterval P s) s else shortCells (nextInterval P s) s

/-- Loop and exit (R206): `NREM − REC_I < 2` over the integers. -/
def recoverLoop (P : Params) (s : State) : State :=
  if s.ivlCnt < leadIn P + s.recI + 2 then s.handOff .frame else classify P s

/-- A core step in RECOVER: the entry step, then one classification a step (R200 to R206). -/
def recoverStep (P : Params) (s : State) : State :=
  if s.entered then recoverLoop P s
  else if s.ivlCnt < leadIn P then recoverTooFew s
  else recoverSeed P s

end Sys2Proof.Machine
end

