-- ==== Sys2Proof/Machine/Segmenter.lean ====
section
/-! DEFINITION. The Swipe Segmenter, phases PRIME and SCAN (spec/41_segmenter.md). A segmenter step is the cancel
check and the block request (R151, R152); after the delivery it resumes and classifies the block (log 6). -/

namespace Sys2Proof.Machine

/-- `SW`, the sum of the power window (R43, R156). -/
def State.windowSum (s : State) : Nat :=
  s.pwin.sum

/-- The active test `p > P_THRESH_FACTOR × SW / P_POW_WIN`, cross-multiplied (R156): `8·p > 7·SW` by default. -/
def isActive (P : Params) (p sw : Nat) : Bool :=
  P.threshFactor.num * sw < p * (P.threshFactor.den * P.powWin)

/-- The trim test `c < P_TRIM_FACTOR × P_THRESH_FACTOR × SW / P_POW_WIN`, cross-multiplied (R160): `16·c < 7·SW` by
default. -/
def isQuietChunk (P : Params) (c sw : Nat) : Bool :=
  c * (P.trimFactor.den * P.threshFactor.den * P.powWin) < P.trimFactor.num * P.threshFactor.num * sw

/-- The raw samples of the block as integers (R71, R152). -/
def rawBlock (P : Params) (s : State) : List Int :=
  (Buffer.slice s.blk 0 P.blockN).map BitVec.toInt

/-- `CORR[k] = BLK[k] − BIAS` (R152). -/
def corrected (P : Params) (s : State) : List Int :=
  (rawBlock P s).map (fun x => x - s.bias)

/-- The block's power `ptp(BLK)` (R152). -/
def blockPower (P : Params) (s : State) : Nat :=
  ptp (rawBlock P s)

/-- The bias for the next block, the floor of the mean of the raw samples (R152). -/
def nextBias (P : Params) (s : State) : Int :=
  (rawBlock P s).sum / (P.blockN : Int)

/-- Front trim (R160): at most `fuel` chunks are dropped; a waveform's length is fuel enough. -/
def trimFront (P : Params) (sw fuel : Nat) (w : List Int) : List Int :=
  match fuel with
  | 0 => w
  | n + 1 =>
    if P.trimChunk ≤ w.length && isQuietChunk P (ptp (w.take P.trimChunk)) sw then
      trimFront P sw n (w.drop P.trimChunk)
    else w

/-- Back trim (R161), on what the front trim left. -/
def trimBack (P : Params) (sw fuel : Nat) (w : List Int) : List Int :=
  match fuel with
  | 0 => w
  | n + 1 =>
    if P.trimChunk ≤ w.length && isQuietChunk P (ptp (w.drop (w.length - P.trimChunk))) sw then
      trimBack P sw n (w.take (w.length - P.trimChunk))
    else w

/-- Final DC-bias correction (R163): an empty waveform stays empty. -/
def finalBias (w : List Int) : List Int :=
  w.map (fun x => x - floorMean w)

/-- The waveform before trimming: the preceding idle block, the active blocks, the terminating block (R159). -/
def rawEvent (P : Params) (s : State) : List Int :=
  Buffer.slice s.idleBuf 0 P.blockN ++ Buffer.slice s.actBuf 0 (s.actCnt * P.blockN) ++ corrected P s

/-- The waveform after the front and back trim (R160, R161). -/
def trimmedEvent (P : Params) (s : State) : List Int :=
  let w := rawEvent P s
  let f := trimFront P s.windowSum w.length w
  trimBack P s.windowSum f.length f

/-- The waveform handed to the detector (R159, R163). -/
def eventWave (P : Params) (s : State) : List Int :=
  finalBias (trimmedEvent P s)

/-- The end of every segmenter step that has its block: `BIAS` takes the block's mean and the request is over (R152). -/
def State.consumeBlock (P : Params) (s : State) : State :=
  { s with bias := nextBias P s, blkHere := false }

/-- Priming step (R154). -/
def primeStep (P : Params) (s : State) : Host.Outcome State Fault Refusal :=
  if s.primeCnt < P.powWin then
    .next { s.consumeBlock P with
      pwin := s.pwin.set s.primeCnt (blockPower P s)
      idleBuf := Buffer.writeList s.idleBuf 0 (corrected P s)
      primeCnt := s.primeCnt + 1
      phase := if s.primeCnt + 1 = P.powWin then .scan else .prime }
  else .fault .primeIndex

/-- `ACT_CNT` has reached `P_MAX_ACTIVE` (R157). -/
def captureFull (P : Params) (s : State) : Bool :=
  P.maxActive == some s.actCnt

/-- Active block (R157). -/
def activeStep (P : Params) (s : State) : State :=
  if captureFull P s then (s.consumeBlock P).raise .captureOverflow
  else
    { s.consumeBlock P with
      actBuf := Buffer.writeList s.actBuf (s.actCnt * P.blockN) (corrected P s)
      actCnt := s.actCnt + 1 }

/-- Idle block with no run in progress (R158). -/
def idleStep (P : Params) (s : State) : State :=
  { s.consumeBlock P with
    pwin := push s.pwin (blockPower P s)
    idleBuf := Buffer.writeList s.idleBuf 0 (corrected P s) }

/-- Terminating block after exactly one active block: noise (R162). -/
def noiseStep (P : Params) (s : State) : State :=
  { s.consumeBlock P with
    actCnt := 0
    pwin := push s.pwin (blockPower P s)
    idleBuf := Buffer.writeList s.idleBuf 0 (corrected P s) }

/-- Terminating block after two or more active blocks: the swipe event (R159). Only the trimmed samples are written: what
`WAVE` holds at and above the final `WAVE_LEN` stays as it was (DESIGN CHOICE, unsafe, log 21; the spec leaves those
elements open and no rule reads them). -/
def eventStep (P : Params) (s : State) : State :=
  { (s.consumeBlock P).handOff .detect with
    wave := Buffer.writeList s.wave 0 (eventWave P s)
    waveLen := (eventWave P s).length }

/-- Classification of a block in SCAN (R156). -/
def scanStep (P : Params) (s : State) : State :=
  if isActive P (blockPower P s) s.windowSum then activeStep P s
  else if s.actCnt = 0 then idleStep P s
  else if s.actCnt = 1 then noiseStep P s
  else eventStep P s

/-- The cancel check, then the block request (R151, R152). -/
def beginBlockStep (s : State) : State :=
  if s.cancelReq then s.raise .cancelled else s.requestBlock

end Sys2Proof.Machine
end

