-- ==== Sys2Proof/Machine/Stages.lean ====
section
/-! DEFINITION. The core's stage operations by phase (spec/40_control.md rules R137 to R139), and the moves at the
ports other than `CMD` (R141, R143, spec/70_reset_and_hazards.md rules R330 and R331). -/

namespace Sys2Proof.Machine

/-- A stage operation of the core. In IDLE (R323, R332) and while a request is outstanding (R75) the core has no
enabled step and the state stays (log 5). -/
def stageStep (P : Params) (s : State) : Host.Outcome State Fault Refusal :=
  if s.waitBlk then .next s
  else
    match s.phase with
    | .idle => .next s
    | .prime => if s.blkHere then primeStep P s else .next (beginBlockStep s)
    | .scan => if s.blkHere then .next (scanStep P s) else .next (beginBlockStep s)
    | .detect => detectStep P s
    | .recover => .next (recoverStep P s)
    | .frame => .next (frameStage s)
    | .decode => .next (decodeStage s)
    | .reserved => .fault .reservedPhase

/-- The Source's delivery (R75 to R77): refused without a request or with another length. -/
def deliverStep (P : Params) (bytes : List Byte) (s : State) : Host.Outcome State Fault Refusal :=
  if s.waitBlk then
    if P.deliveryWellFormed bytes then .next (s.takeBlock (samplesOfBytes bytes)) else .refused .deliveryLength
  else .refused .deliveryWithoutRequest

/-- Reset in a running machine (R330, R331): every register and buffer takes its value after reset (log 9); the
outside world's moves are not the core's and stay. -/
def resetStep (P : Params) (s : State) : State :=
  { State.resetFor P with inputs := s.inputs, hostSaw := s.hostSaw, freeCnt := s.freeCnt }

/-- A host read of `STATUS` (R38, R136): a reported result with the reserved code is a fault (93 section 1). -/
def readStatusStep (s : State) : Host.Outcome State Fault Refusal :=
  if s.done && s.resultCode == .reserved then .fault .reservedOutcome
  else .next { s with hostSaw := .status s.status }

/-- A host read of `OUT[k]` (R89, R136): the next free byte is another one. -/
def readOutStep (k : Nat) (s : State) : State :=
  { s with hostSaw := .out (s.hostOut k), freeCnt := s.freeCnt + 1 }

/-- A host read of `OUT[k]` through `OUT_ADDR`: refused where the port's `IW` bits cannot carry `k` (R143, log 10). -/
def readOutMove (P : Params) (k : Nat) (s : State) : Host.Outcome State Fault Refusal :=
  if indexFits P k then .next (readOutStep k s) else .refused .addressWidth

/-- A move at a port other than `CMD`. -/
def portStep (P : Params) (m : PortMove) (s : State) : Host.Outcome State Fault Refusal :=
  match m with
  | .deliver bytes => deliverStep P bytes s
  | .reset => .next (resetStep P s)
  | .readStatus => readStatusStep s
  | .readLen => .next { s with hostSaw := .len s.resultLen }
  | .readOut k => readOutMove P k s

end Sys2Proof.Machine
end

