-- ==== Sys2Proof/Machine/CoreStep.lean ====
section
/-! DEFINITION. One step of a block with given parameters (spec/40_control.md rules R130 and R138): the next move of
the tape, or the core's own step. -/

namespace Sys2Proof.Machine

/-- The core's own next step: the meaning of the symbol word it reads, or a stage operation. -/
def coreStep (P : Params) (s : State) : Host.Outcome State Fault Refusal :=
  match fetchWord s with
  | some w => exec (decodeSymbol w) s
  | none => stageStep P s

/-- One step of a block with parameters `P`. The tape says who moves (log 4); at its end the outside is silent and the
core goes on (log 5). -/
def stepWith (P : Params) (s : State) : Host.Outcome State Fault Refusal :=
  match s.inputs with
  | [] => coreStep P s
  | .core :: rest => coreStep P { s with inputs := rest }
  | .command c :: rest => exec (decodeCommand c) { s with inputs := rest }
  | .port m :: rest => portStep P m { s with inputs := rest }

end Sys2Proof.Machine
end

