-- ==== Sys2Proof/Machine/Placing.lean ====
section
/-! DEFINITION. Placing an encoded word where the machine reads its next one (log 18): a command on the `CMD` port, an
odd-parity symbol word as the next body symbol of the decoder, an even-parity one as the next candidate of the framer. -/

namespace Sys2Proof.Machine

/-- The tape with the core to move next. -/
def coreToMove (tape : List Move) : List Move :=
  match tape with
  | [] => []
  | rest => .core :: rest

/-- The state in which the next step of the core reads `w` as the body symbol at `DEC_J` = 1. -/
def State.placeBodySymbol (w : Symbol) (s : State) : State :=
  { s with
    phase := .decode
    entered := true
    waitBlk := false
    dir := false
    decJ := 1
    symCnt := max s.symCnt 2
    syms := Buffer.write s.syms 1 w
    inputs := coreToMove s.inputs }

/-- The state in which the next step of the core reads `w` as the candidate at `FR_K`. -/
def State.placeCandidate (w : Symbol) (s : State) : State :=
  { s with
    phase := .frame
    entered := true
    waitBlk := false
    bitCnt := max s.bitCnt (s.frK + 5)
    bits := Buffer.writeList s.bits s.frK ((List.range 5).map w.getLsbD)
    inputs := coreToMove s.inputs }

/-- The state in which the next step applies a command. -/
def State.placeCommand (c : Command) (s : State) : State :=
  { s with inputs := .command c :: s.inputs }

/-- Place a table word (log 17, log 18). -/
def State.placeTableWord (nbits w : Nat) (s : State) : State :=
  match tableSpace nbits with
  | .command => s.placeCommand (BitVec.ofNat 2 w)
  | .symbol =>
    if oddParity (BitVec.ofNat 5 w) then s.placeBodySymbol (BitVec.ofNat 5 w) else s.placeCandidate (BitVec.ofNat 5 w)

end Sys2Proof.Machine
end

