-- ==== Sys2Proof/Machine/Step.lean ====
section
/-! DEFINITION. One step of the machine, and where an encoded word is placed for it. -/

namespace Sys2Proof.Machine

/-- One step of the block with the default parameters (R9 to R22). -/
def step (s : State) : Host.Outcome State Fault Refusal :=
  stepWith Config.params s

/-- The state whose next step runs the table word `w` of `nbits` bits (log 17, log 18). -/
def State.withFetchWord (s : State) (nbits w : Nat) : State :=
  s.placeTableWord nbits w

end Sys2Proof.Machine
end

