-- ==== Sys2Proof/Machine/Stimulus.lean ====
section
/-! DEFINITION. The stimulus encoders (spec/30_encoding.md rules R116 to R119): track text to symbol words, symbol
words to bits, bits to intervals. They are not part of the block; they say what a card presents to it. -/

namespace Sys2Proof.Machine

/-- The valid word of a data value: the parity bit is 1 less the parity of the data bits (R104, R109). -/
def validWord (v : BitVec 4) : Symbol :=
  BitVec.ofBool (popcount (v.setWidth 5) % 2 == 0) ++ v

/-- The data value of a character of R106. -/
def valueOfChar (c : Byte) : BitVec 4 :=
  c.setWidth 4

/-- The XOR of the data values of a text (R117). -/
def lrcData (text : List Byte) : BitVec 4 :=
  (text.map valueOfChar).foldl (fun a v => a ^^^ v) 0#4

/-- Track text to symbols: the word of every character, then the LRC word (R117). -/
def encodeText (text : List Byte) : List Symbol :=
  text.map (fun c => validWord (valueOfChar c)) ++ [validWord (lrcData text)]

/-- The bits of a symbol word in reception order, `SYM[0]` first (R103). -/
def bitsOfWord (w : Symbol) : List Bool :=
  [w.getLsbD 0, w.getLsbD 1, w.getLsbD 2, w.getLsbD 3, w.getLsbD 4]

/-- Symbols to bits: `a` run-out zeros, the bits of every word, `b` run-out zeros (R118). -/
def encodeBits (a b : Nat) (ws : List Symbol) : List Bool :=
  List.replicate a false ++ ws.flatMap bitsOfWord ++ List.replicate b false

/-- The intervals of one bit for a nominal short interval `T`: one long cell for 0, two short cells for 1 (R119). -/
def cellsOfBit (T : Nat) (b : Bool) : List Nat :=
  if b then [T, T] else [2 * T]

/-- Bits to intervals (R119): a lead-in of `n` long cells, the cells of every bit, and further intervals. R119 asks for at
least one of these; that the encoder appends exactly one is the model's (DESIGN CHOICE, log 22). -/
def encodeIntervals (T n last : Nat) (bs : List Bool) : List Nat :=
  List.replicate n (2 * T) ++ bs.flatMap (cellsOfBit T) ++ [last]

end Sys2Proof.Machine
end

