-- ==== Sys2Proof/Safety.lean ====
section
/-! DEFINITION. What counts as a safe state and a safe run, in the terms the statements use: runs, the state at the
start of a stage, what the host can tell apart, and the invariants. The invariants are about every state, reached or
not; that reset has them and that every step keeps them are statements of their own. -/

namespace Sys2Proof.Machine

/-- `n` steps of a block with parameters `P`, stopping at the first fault or refusal. -/
def runWith (P : Params) (n : Nat) (s : State) : Host.Outcome State Fault Refusal :=
  match n with
  | 0 => .next s
  | m + 1 =>
    match stepWith P s with
    | .next t => runWith P m t
    | .fault r => .fault r
    | .refused r => .refused r

/-! ### The start of a stage -/

/-- The core is about to enter a stage and the outside is silent. -/
def AtStage (p : Phase) (s : State) : Prop :=
  s.phase = p ∧ s.entered = false ∧ s.waitBlk = false ∧ s.inputs = []

/-- The core is about to enter RECOVER with these intervals. -/
def AtRecover (s : State) (xs : List Nat) : Prop :=
  AtStage .recover s ∧ s.ivlCnt = xs.length ∧ Buffer.slice s.ivl 0 s.ivlCnt = xs

/-- The core is about to enter FRAME with these bits. -/
def AtFrame (s : State) (bs : List Bool) : Prop :=
  AtStage .frame s ∧ s.bitCnt = bs.length ∧ Buffer.slice s.bits 0 s.bitCnt = bs

/-- The core is about to enter DECODE with these symbol words. -/
def AtDecode (s : State) (ws : List Symbol) : Prop :=
  AtStage .decode s ∧ s.symCnt = ws.length ∧ Buffer.slice s.syms 0 s.symCnt = ws

/-- The invocation runs to the outcome `c` with the text `text` as the host reads it. -/
def EndsWith (P : Params) (s : State) (c : ResultCode) (text : List Byte) : Prop :=
  ∃ n t, runWith P n s = .next t ∧ t.phase = .idle ∧ t.done = true ∧ t.resultCode = c ∧
    t.resultLen = text.length ∧ Buffer.slice t.out 0 t.resultLen = text

/-- A data text: characters of R106 other than `?`. -/
def DataText (d : List Byte) : Prop :=
  ∀ c ∈ d, 0x30#8 ≤ c ∧ c ≤ 0x3E#8

/-- The track text `;` d `?` of R117. -/
def trackText (d : List Byte) : List Byte :=
  startChar :: (d ++ [endChar])

/-- The LRC word the encoder appends to a track text (R117). -/
def lrcOf (d : List Byte) : Symbol :=
  validWord (lrcData (trackText d))

/-- The clock factor tells one cell from two at a steady speed: 1 ≤ `P_LONG_FACTOR` < 2 (3/2 by default, R21). -/
def SteadyClock (P : Params) : Prop :=
  P.longFactor.den ≤ P.longFactor.num ∧ P.longFactor.num < 2 * P.longFactor.den

/-! ### What the host can tell apart -/

/-- Two states look the same to the host and the Source (R59): `STATUS`, `RESULT_LEN`, and `OUT` below it. -/
def LooksSame (s t : State) : Prop :=
  s.status = t.status ∧ s.resultLen = t.resultLen ∧ ∀ k < s.resultLen, Buffer.read s.out k = Buffer.read t.out k

/-- Two step outcomes look the same to the host. -/
def OutcomesLookSame (a b : Host.Outcome State Fault Refusal) : Prop :=
  match a, b with
  | .next s, .next t => LooksSame s t
  | .fault r, .fault q => r = q
  | .refused r, .refused q => r = q
  | _, _ => False

/-! ### What a symbol word does -/

/-- The result registers after an outcome with code `c` and `n` reported characters (R305). -/
def Reports (t : State) (c : ResultCode) (n : Nat) : Prop :=
  t.resultCode = c ∧ t.resultLen = n ∧ t.done = true ∧ t.cancelReq = false ∧ t.waitBlk = false ∧ t.phase = .idle

/-- `t` is `s` but for what R305 writes (the model's two sequencing bits with it). -/
def OnlyResultChanged (s t : State) : Prop :=
  { t with
    resultCode := s.resultCode, resultLen := s.resultLen, done := s.done, cancelReq := s.cancelReq
    waitBlk := s.waitBlk, phase := s.phase, blkHere := s.blkHere, entered := s.entered } = s

/-- In the body the word folds `data` into `ACC`, outputs `c` and advances; nothing else changes (R245, R248). -/
def TakenAsData (i : Instr) (data : BitVec 4) (c : Byte) : Prop :=
  ∀ s : State, s.phase = .decode → s.entered = true →
    ∃ t, exec i s = .next t ∧
      t.acc = s.acc ^^^ data.setWidth 5 ∧ t.outLen = s.outLen + 1 ∧ t.decJ = s.decJ + 1 ∧
      Buffer.read t.out s.outLen = c ∧ (∀ k, k ≠ s.outLen → Buffer.read t.out k = Buffer.read s.out k) ∧
      { t with acc := s.acc, out := s.out, outLen := s.outLen, decJ := s.decJ } = s

/-- At `SYMS[0]` the word makes the decoder read the sequence reversed (R243, R244): with `;` at its start the decode
begins, without it the invocation ends with MissingStartSentinel. -/
def ReversesAtEntry (i : Instr) : Prop :=
  ∀ s : State, s.phase = .decode → s.entered = false → 0 < s.symCnt →
    ∃ t, exec i s = .next t ∧ t.dir = true ∧
      (charOf (rev (Buffer.read s.syms (s.symCnt - 1))) = startChar →
        t.acc = rev (Buffer.read s.syms (s.symCnt - 1)) ∧ t.decJ = 1 ∧ t.outLen = 0 ∧ t.entered = true ∧
          { t with dir := s.dir, acc := s.acc, decJ := s.decJ, outLen := s.outLen, entered := s.entered } = s) ∧
      (charOf (rev (Buffer.read s.syms (s.symCnt - 1))) ≠ startChar →
        Reports t .missingStartSentinel 0 ∧ OnlyResultChanged { s with dir := true } t)

/-! ### Invariants -/

/-- The control registers keep to the rules R31 to R37. -/
structure ControlOk (s : State) : Prop where
  /-- `PHASE` is never 7 (R31). -/
  phase_legal : s.phase ≠ .reserved
  /-- `RESULT_CODE` is never 7 (R112). -/
  outcome_legal : s.resultCode ≠ .reserved
  /-- A finished invocation is idle (R33, R305). -/
  done_idle : s.done = true → s.phase = .idle
  /-- Only the segmenter waits for the Source (R75, R138), and not while it has its block. -/
  wait_segmenter : s.waitBlk = true → (s.phase = .prime ∨ s.phase = .scan) ∧ s.blkHere = false
  /-- Only the segmenter has a block to resume with. -/
  block_segmenter : s.blkHere = true → s.phase = .prime ∨ s.phase = .scan
  /-- A latched cancel belongs to a running invocation (R34). -/
  cancel_busy : s.cancelReq = true → s.phase ≠ .idle
  /-- Only the four later stages have an entry step (R138). -/
  entered_stage : s.entered = true →
    s.phase = .detect ∨ s.phase = .recover ∨ s.phase = .frame ∨ s.phase = .decode
  /-- Without a result the result registers are 0 (R36, R37). -/
  no_result : s.done = false → s.resultCode = .ok ∧ s.resultLen = 0
  /-- A failure reports no characters (R37, R301). -/
  failure_empty : s.resultCode ≠ .ok → s.resultLen = 0

/-- The largest value of the scaled threshold: 2097120 for the default factors (R47). -/
def thrBound (P : Params) : Nat :=
  max (P.initFactor.num * P.nextFactor.den * 262140) (P.nextFactor.num * P.initFactor.den * 131070)

/-- Every value register and sample buffer holds a value of its stated width (R27, R40 to R48, R72 to R74). -/
structure RangesOk (P : Params) (s : State) : Prop where
  /-- `PWIN`: 16 bits unsigned (R40). -/
  pwin_range : ∀ p ∈ s.pwin, p ≤ 65535
  /-- `PRIME_CNT`: 0 .. `P_POW_WIN` (R41). -/
  prime_range : s.primeCnt ≤ P.powWin
  /-- `BIAS`: 16 bits signed (R42). -/
  bias_range : -32768 ≤ s.bias ∧ s.bias ≤ 32767
  /-- `ACT_CNT`: 0 .. `P_MAX_ACTIVE` (R44). -/
  active_range : ∀ m, P.maxActive = some m → s.actCnt ≤ m
  /-- `IDLE_BUF`: −65535 .. 65535 (R72). -/
  idle_range : ∀ k, -65535 ≤ Buffer.read s.idleBuf k ∧ Buffer.read s.idleBuf k ≤ 65535
  /-- `ACT_BUF`: −65535 .. 65535 (R73). -/
  act_range : ∀ k, -65535 ≤ Buffer.read s.actBuf k ∧ Buffer.read s.actBuf k ≤ 65535
  /-- `WAVE`: −131070 .. 131070 (R74, R102). -/
  wave_range : ∀ k, -131070 ≤ Buffer.read s.wave k ∧ Buffer.read s.wave k ≤ 131070
  /-- `THR10` (R47). -/
  thr_range : s.thr ≤ thrBound P
  /-- `PEAK`: 0 .. 131070 (R48). -/
  peak_range : s.peak ≤ 131070

/-- Every index register and count holds a value in 0 .. `n`, every clock slot, which counts half samples, one in
0 .. 2·`n`. -/
structure IndexesWithin (n : Nat) (s : State) : Prop where
  /-- `RESULT_LEN` (R37, and the port of R143). -/
  result_len : s.resultLen ≤ n
  /-- `DET_J` (R45). -/
  det_j : s.detJ ≤ n
  /-- `PEAK_IDX` (R49). -/
  peak_idx : s.peakIdx ≤ n
  /-- `PREV_IDX` (R50). -/
  prev_idx : s.prevIdx ≤ n
  /-- `CWIN`, one bit wider (R51). -/
  clock : ∀ h ∈ s.cwin, h ≤ 2 * n
  /-- `REC_I` (R52). -/
  rec_i : s.recI ≤ n
  /-- `FR_K` (R53). -/
  fr_k : s.frK ≤ n
  /-- `DEC_J` (R55). -/
  dec_j : s.decJ ≤ n
  /-- `WAVE_LEN` (R57). -/
  wave_len : s.waveLen ≤ n
  /-- `IVL_CNT` (R57). -/
  ivl_cnt : s.ivlCnt ≤ n
  /-- `BIT_CNT` (R57). -/
  bit_cnt : s.bitCnt ≤ n
  /-- `SYM_CNT` (R57). -/
  sym_cnt : s.symCnt ≤ n
  /-- `OUT_LEN` (R57). -/
  out_len : s.outLen ≤ n
  /-- `IVL` (R79). -/
  intervals : ∀ k, Buffer.read s.ivl k ≤ n

/-- Every register of `IW` bits holds a value that `IW` bits are made for, 0 .. `L_MAX` (R24, R37, R45, R49 to R53, R55,
R57, R79). With an infinite capacity an index has no bound. -/
def WidthsOk (P : Params) (s : State) : Prop :=
  ∀ n, captureMax P = some n → IndexesWithin n s

/-- The invocation is past the segmenter. -/
def PastSegmenter (s : State) : Prop :=
  s.phase = .detect ∨ s.phase = .recover ∨ s.phase = .frame ∨ s.phase = .decode

/-- The detector's registers between two sample steps (R182 to R187). -/
structure DetectOk (s : State) : Prop where
  index_inside : s.detJ < s.waveLen
  none_recorded : s.havePrev = false → s.ivlCnt = 0
  last_recorded : s.havePrev = true → s.prevIdx + 2 ≤ s.detJ ∧ 2 * s.ivlCnt ≤ s.prevIdx
  run_open : s.peak ≠ 0 → s.peakIdx < s.detJ
  run_after_last : s.peak ≠ 0 → s.havePrev = true → s.prevIdx + 2 ≤ s.peakIdx

/-- Every interval is at least 2 and at most `WAVE_LEN` − 1 (R79, R187). -/
def IntervalsOk (s : State) : Prop :=
  ∀ k < s.ivlCnt, 2 ≤ Buffer.read s.ivl k ∧ Buffer.read s.ivl k + 1 ≤ s.waveLen

/-- Stored symbols have odd parity and the first begins with a 1 bit (R226, R227). -/
def SymbolsOk (s : State) : Prop :=
  (∀ k < s.symCnt, oddParity (Buffer.read s.syms k) = true) ∧
    (0 < s.symCnt → (Buffer.read s.syms 0).getLsbD 0 = true)

/-- The counts and indexes of the stages keep to R24, R57 and the stages' own rules, by phase. -/
structure StageOk (P : Params) (s : State) : Prop where
  /-- `PWIN` has its entries (R40). -/
  window_length : s.pwin.length = P.powWin
  /-- Priming is under way and no run is (R150, R153). -/
  priming : s.phase = .prime → s.primeCnt < P.powWin ∧ s.actCnt = 0
  /-- Priming took exactly `P_POW_WIN` blocks (R153). -/
  primed : s.phase = .scan ∨ PastSegmenter s → s.primeCnt = P.powWin
  /-- An event has at least two active blocks and fits its capacity (R24, R165, R166). -/
  event_size : PastSegmenter s → 2 ≤ s.actCnt ∧ s.waveLen ≤ (s.actCnt + 2) * P.blockN
  /-- The detector's registers. -/
  detecting : s.phase = .detect → s.entered = true → DetectOk s ∧ IntervalsOk s
  /-- The interval buffer holds fewer than half as many entries as the waveform (R24, R187). -/
  detected : s.phase = .recover ∨ s.phase = .frame ∨ s.phase = .decode →
    IntervalsOk s ∧ (2 * s.ivlCnt < s.waveLen ∨ s.ivlCnt = 0)
  /-- The recoverer's registers (R51, R206, R207). -/
  recovering : s.phase = .recover → s.entered = true →
    leadIn P + s.recI ≤ s.ivlCnt ∧ s.bitCnt ≤ s.recI ∧ s.cwin.length = P.clkWin ∧
      ∀ h ∈ s.cwin, h ≤ 2 * s.waveLen
  /-- The bit buffer holds at most as many entries as the interval buffer (R24). -/
  recovered : s.phase = .frame ∨ s.phase = .decode → s.bitCnt ≤ s.ivlCnt
  /-- The framer's registers (R221 to R227). -/
  framing : s.phase = .frame → s.entered = true →
    5 * s.symCnt ≤ s.frK ∧ s.frK ≤ s.bitCnt ∧ SymbolsOk s ∧
      (s.symCnt = 0 → s.frK < s.bitCnt → Buffer.read s.bits s.frK = true)
  /-- The symbol buffer holds at most a fifth as many entries as the bit buffer (R24). -/
  framed : s.phase = .decode → 5 * s.symCnt ≤ s.bitCnt ∧ SymbolsOk s
  /-- The decoder's registers (R244, R248), and the form of an output byte (R113). -/
  decoding : s.phase = .decode → s.entered = true →
    s.outLen + 1 = s.decJ ∧ s.decJ ≤ s.symCnt ∧
      ∀ k < s.outLen, 0x30#8 ≤ Buffer.read s.out k ∧ Buffer.read s.out k ≤ 0x3E#8
  /-- A reported text is made of data characters (R250, R309). -/
  reported : s.done = true →
    ∀ k < s.resultLen, 0x30#8 ≤ Buffer.read s.out k ∧ Buffer.read s.out k ≤ 0x3E#8

/-- The buffers within the capacities R24 derives from `n` = `L_MAX`, each from the step on that begins to fill it. -/
structure WithinCapacity (P : Params) (n : Nat) (s : State) : Prop where
  /-- The captured run, `P_MAX_ACTIVE` blocks beside the idle and the terminating one. -/
  run_fits : (s.actCnt + 2) * P.blockN ≤ n
  /-- `WAVE`: at most `L_MAX` samples. -/
  wave_fits : PastSegmenter s → s.waveLen ≤ n
  /-- `IVL`: fewer than `L_MAX` / 2 intervals. -/
  intervals_fit : s.phase = .detect ∧ s.entered = true ∨ s.phase = .recover ∨ s.phase = .frame ∨ s.phase = .decode →
    2 * s.ivlCnt < n
  /-- `BITS`: at most as many bits as intervals. -/
  bits_fit : s.phase = .recover ∧ s.entered = true ∨ s.phase = .frame ∨ s.phase = .decode → s.bitCnt ≤ s.ivlCnt
  /-- `SYMS`: at most a fifth as many symbols as bits. -/
  symbols_fit : s.phase = .frame ∧ s.entered = true ∨ s.phase = .decode → 5 * s.symCnt ≤ s.bitCnt
  /-- `OUT`: fewer characters than symbols. -/
  characters_fit : s.phase = .decode → s.entered = true → s.outLen < s.symCnt

end Sys2Proof.Machine
end

