-- ==== Sys2Proof/Certificates/Slice0/Obligations.lean ====
section
/-! DEFINITION. The statements for the provers. Each docstring names the rule of spec/ it formalises; a statement that
rests on a choice of the model says so and names the log entry. -/

open Sys2Proof Sys2Proof.Machine

/-! ### Encodings -/

/-- The tables of R109, R126 and R110 are a code: decoding the word of an instruction gives it back, a decoded unit is
the word of what it decodes to, and a unit with more bits than its space has none. -/
def Obligations.CodingIsExact : Prop :=
  (∀ i : Instr, decode (spaceOf i) (encode i) = .ok i) ∧
    (∀ sp b i, decode sp b = .ok i → spaceOf i = sp ∧ encode i = b) ∧
    (∀ b : Byte, 32 ≤ b.toNat → decode .symbol b = .error .symbolWordTooWide) ∧
    ∀ b : Byte, 4 ≤ b.toNat → decode .command b = .error .commandCodeTooWide

/-- Words written out bit by bit from R103, R109, R126 and R110 decode to what they stand for: `;` is received 11010, `?`
11111, `0` 00001, `6` 01101, the invalid word 0x03 11000; START is 01. -/
def Obligations.WrittenWordsDecode : Prop :=
  decodeSymbol (wordOfBits true true false true false) = .startSentinel ∧
    decodeSymbol (wordOfBits true true true true true) = .endSentinel ∧
    decodeSymbol (wordOfBits false false false false true) = .digit0 ∧
    decodeSymbol (wordOfBits false true true false true) = .digit6 ∧
    decodeSymbol (wordOfBits true true false false false) = .invalid03 ∧
    decodeCommand 0b01#2 = .start ∧ decodeCommand 0b10#2 = .cancel

/-- R104: a word may stand in `SYMS` exactly when its popcount is odd, the framer accepts only such words, and for each
4-bit data value exactly one parity bit makes it so, 1 − (popcount of the data bits mod 2). -/
def Obligations.OneParityBitIsValid : Prop :=
  (∀ w : Symbol, (decodeSymbol w).mayStandInSyms = true ↔ popcount w % 2 = 1) ∧
    (∀ (w : Symbol) (s t : State), s.phase = .frame → s.entered = true → exec (decodeSymbol w) s = .next t →
      (t.symCnt = s.symCnt + 1 ↔ popcount w % 2 = 1)) ∧
    (∀ (v : BitVec 4) (p : Bool), popcount (BitVec.ofBool p ++ v) % 2 = 1 ↔
      p.toNat = 1 - popcount (v.setWidth 5) % 2) ∧
    ((List.range 32).filter (fun n => popcount (BitVec.ofNat 5 n) % 2 = 1)).length = 16

/-- R108: `rev(SYM)[k] = SYM[4 − k]`; reversal keeps the popcount and is its own inverse; the decoder reads every symbol
of a reversed swipe through it. -/
def Obligations.ReversalTurnsTheWordAround : Prop :=
  (∀ w : Symbol, (∀ k < 5, (rev w).getLsbD k = w.getLsbD (4 - k)) ∧ popcount (rev w) = popcount w ∧ rev (rev w) = w) ∧
    ∀ (s : State) (i : Nat), s.dir = true → decodedSym s i = rev (Buffer.read s.syms (s.symCnt - 1 - i))

/-- R105 and R106: the character of a word is 48 + d0 + 2·d1 + 4·d2 + 8·d3, whatever its parity bit. -/
def Obligations.CharacterOfAWord : Prop :=
  ∀ w : Symbol, (charOf w).toNat = 48 + ((w.getLsbD 0).toNat + 2 * (w.getLsbD 1).toNat + 4 * (w.getLsbD 2).toNat +
    8 * (w.getLsbD 3).toNat)

/-! ### Steps and what they run -/

/-- The step runs the command the host has written, at the state the host leaves, in every phase and whatever `WAIT_BLK`
is (R130). -/
def Obligations.StepRunsTheCommand : Prop :=
  ∀ (P : Params) (c : Command) (rest : List Move) (s : State), s.inputs = .command c :: rest →
    stepWith P s = exec (decodeCommand c) { s with inputs := rest } ∧
      step s = exec (decodeCommand c) { s with inputs := rest }

/-- The step runs the symbol word the core reads, when the core moves: with the outside silent, or at an entry of the
tape that leaves the move to it. -/
def Obligations.StepRunsTheSymbolWord : Prop :=
  ∀ (P : Params) (w : Symbol) (s : State),
    (s.inputs = [] → fetchWord s = some w → stepWith P s = exec (decodeSymbol w) s ∧
      step s = exec (decodeSymbol w) s) ∧
    ∀ rest, s.inputs = .core :: rest → fetchWord { s with inputs := rest } = some w →
      stepWith P s = exec (decodeSymbol w) { s with inputs := rest } ∧
        step s = exec (decodeSymbol w) { s with inputs := rest }

/-- Which word the core reads: in FRAME the next five bits, the first received in bit 0 (R91, R223); at the entry of
DECODE the first stored symbol (R242); in its body `S[DEC_J]`, seen through `DIR` (R128, R243, R245). -/
def Obligations.WordTheCoreReads : Prop :=
  ∀ s : State, s.waitBlk = false →
    (s.phase = .frame → s.entered = true → s.frK + 5 ≤ s.bitCnt →
      ∃ w, fetchWord s = some w ∧ ∀ k < 5, w.getLsbD k = Buffer.read s.bits (s.frK + k)) ∧
    (s.phase = .decode → s.entered = false → 0 < s.symCnt → fetchWord s = some (Buffer.read s.syms 0)) ∧
    (s.phase = .decode → s.entered = true → s.decJ < s.symCnt → s.dir = false →
      fetchWord s = some (Buffer.read s.syms s.decJ)) ∧
    (s.phase = .decode → s.entered = true → s.decJ < s.symCnt → s.dir = true →
      fetchWord s = some (rev (Buffer.read s.syms (s.symCnt - 1 - s.decJ))))

/-! ### Commands -/

/-- R131 and R132: in IDLE, START clears the result and the control bits, zeroes the segmenter's counters and every
buffer count, and enters PRIME; in any other phase it changes nothing. -/
def Obligations.StartIsAcceptedOnlyInIdle : Prop :=
  ∀ s : State,
    (s.phase = .idle →
      ∃ t, exec .start s = .next t ∧ t.done = false ∧ t.resultCode = .ok ∧ t.resultLen = 0 ∧ t.cancelReq = false ∧
        t.waitBlk = false ∧ t.primeCnt = 0 ∧ t.bias = 0 ∧ t.actCnt = 0 ∧ t.waveLen = 0 ∧ t.ivlCnt = 0 ∧
        t.bitCnt = 0 ∧ t.symCnt = 0 ∧ t.outLen = 0 ∧ t.phase = .prime) ∧
      (s.phase ≠ .idle → exec .start s = .next s)

/-- The frame of an accepted START: the registers and buffers R131 does not write keep their values (the model's choice
where R131 calls them unspecified, log 8). -/
def Obligations.StartKeepsTheRest : Prop :=
  ∀ s t : State, s.phase = .idle → exec .start s = .next t →
    t.pwin = s.pwin ∧ t.detJ = s.detJ ∧ t.sign = s.sign ∧ t.thr = s.thr ∧ t.peak = s.peak ∧ t.peakIdx = s.peakIdx ∧
      t.prevIdx = s.prevIdx ∧ t.havePrev = s.havePrev ∧ t.cwin = s.cwin ∧ t.recI = s.recI ∧ t.frK = s.frK ∧
      t.dir = s.dir ∧ t.decJ = s.decJ ∧ t.acc = s.acc ∧
      ∀ k, Buffer.read t.blk k = Buffer.read s.blk k ∧ Buffer.read t.idleBuf k = Buffer.read s.idleBuf k ∧
        Buffer.read t.actBuf k = Buffer.read s.actBuf k ∧ Buffer.read t.wave k = Buffer.read s.wave k ∧
        Buffer.read t.ivl k = Buffer.read s.ivl k ∧ Buffer.read t.bits k = Buffer.read s.bits k ∧
        Buffer.read t.syms k = Buffer.read s.syms k ∧ Buffer.read t.out k = Buffer.read s.out k

/-- R133, R134 and R135: CANCEL latches `CANCEL_REQ` in PRIME and SCAN and changes nothing else; in every other phase it
changes nothing; NOP and the reserved code change nothing, in any state. -/
def Obligations.CancelNopAndReservedCommands : Prop :=
  ∀ s : State,
    (s.phase = .prime ∨ s.phase = .scan → exec .cancel s = .next { s with cancelReq := true }) ∧
      (s.phase ≠ .prime → s.phase ≠ .scan → exec .cancel s = .next s) ∧
      exec .nop s = .next s ∧ exec .reservedCmd s = .next s

/-! ### Symbol words -/

/-- R270 to R279: the ten digit words, their encodings, their reversals, what each does in the body and at `SYMS[0]`. -/
def Obligations.DigitWords : Prop :=
  ∀ r ∈ [(Instr.digit0, 0x10#8, 0b0000#4, 0x30#8, 0x01#8), (.digit1, 0x01#8, 0b0001#4, 0x31#8, 0x10#8),
      (.digit2, 0x02#8, 0b0010#4, 0x32#8, 0x08#8), (.digit3, 0x13#8, 0b0011#4, 0x33#8, 0x19#8),
      (.digit4, 0x04#8, 0b0100#4, 0x34#8, 0x04#8), (.digit5, 0x15#8, 0b0101#4, 0x35#8, 0x15#8),
      (.digit6, 0x16#8, 0b0110#4, 0x36#8, 0x0D#8), (.digit7, 0x07#8, 0b0111#4, 0x37#8, 0x1C#8),
      (.digit8, 0x08#8, 0b1000#4, 0x38#8, 0x02#8), (.digit9, 0x19#8, 0b1001#4, 0x39#8, 0x13#8)],
    encode r.1 = r.2.1 ∧ (rev (r.2.1.setWidth 5)).setWidth 8 = r.2.2.2.2 ∧
      TakenAsData r.1 r.2.2.1 r.2.2.2.1 ∧ ReversesAtEntry r.1

/-- R280, R282, R283 and R284: `:`, `<`, the field separator `=` and `>` are data characters like the digits. -/
def Obligations.OtherDataWords : Prop :=
  ∀ r ∈ [(Instr.colon, 0x1A#8, 0b1010#4, 0x3A#8, 0x0B#8), (.less, 0x1C#8, 0b1100#4, 0x3C#8, 0x07#8),
      (.fieldSep, 0x0D#8, 0b1101#4, 0x3D#8, 0x16#8), (.greater, 0x0E#8, 0b1110#4, 0x3E#8, 0x0E#8)],
    encode r.1 = r.2.1 ∧ (rev (r.2.1.setWidth 5)).setWidth 8 = r.2.2.2.2 ∧
      TakenAsData r.1 r.2.2.1 r.2.2.2.1 ∧ ReversesAtEntry r.1

/-- R281: `;` as `S[0]` starts the decode with `ACC` = 0x0B and nothing output: forward when it stands at `SYMS[0]` (R242,
R244), reversed when another character stands there and the last symbol is 0x1A, its reversal (R243, R244); in the body it
is a data character. -/
def Obligations.StartSentinelWord : Prop :=
  encode .startSentinel = 0x0B#8 ∧ rev 0x0B#5 = 0x1A#5 ∧
    (∀ s : State, s.phase = .decode → s.entered = false →
      ∃ t, exec .startSentinel s = .next t ∧ t.dir = false ∧ t.acc = 0x0B#5 ∧ t.decJ = 1 ∧ t.outLen = 0 ∧
        t.entered = true ∧
        { t with dir := s.dir, acc := s.acc, decJ := s.decJ, outLen := s.outLen, entered := s.entered } = s) ∧
    (∀ (w : Symbol) (s : State), popcount w % 2 = 1 → s.phase = .decode → s.entered = false → 0 < s.symCnt →
      charOf w ≠ startChar → Buffer.read s.syms (s.symCnt - 1) = 0x1A#5 →
      ∃ t, exec (decodeSymbol w) s = .next t ∧ t.dir = true ∧ t.acc = 0x0B#5 ∧ t.decJ = 1 ∧ t.outLen = 0 ∧
        t.entered = true ∧
        { t with dir := s.dir, acc := s.acc, decJ := s.decJ, outLen := s.outLen, entered := s.entered } = s) ∧
    TakenAsData .startSentinel 0b1011#4 0x3B#8

/-- R285 (with R246 and R247): `?` in the body folds 1111 into `ACC`, forces its parity odd, and ends the invocation: OK
with the characters decoded so far when the next symbol is there and equals `ACC` in all five bits, else BadLRC with
none. At `SYMS[0]` it causes the reversal. -/
def Obligations.EndSentinelWord : Prop :=
  encode .endSentinel = 0x1F#8 ∧ rev 0x1F#5 = 0x1F#5 ∧ ReversesAtEntry .endSentinel ∧
    ∀ s : State, s.phase = .decode → s.entered = true →
      ∃ t, exec .endSentinel s = .next t ∧
        (∀ k < 4, t.acc.getLsbD k = !s.acc.getLsbD k) ∧ popcount t.acc % 2 = 1 ∧
        ((s.decJ + 1 < s.symCnt ∧ decodedSym s (s.decJ + 1) = t.acc → Reports t .ok s.outLen) ∧
          (s.symCnt ≤ s.decJ + 1 ∨ decodedSym s (s.decJ + 1) ≠ t.acc → Reports t .badLrc 0)) ∧
        OnlyResultChanged { s with acc := t.acc } t

/-- R224: each of the sixteen odd-parity words, as a candidate of the framer, is stored in `SYMS` and consumes five
bits; nothing else changes. -/
def Obligations.ValidWordsAreFramed : Prop :=
  ∀ i ∈ [Instr.digit0, .digit1, .digit2, .digit3, .digit4, .digit5, .digit6, .digit7, .digit8, .digit9, .colon,
      .startSentinel, .less, .fieldSep, .greater, .endSentinel],
    ∀ s : State, s.phase = .frame → s.entered = true →
      ∃ t, exec i s = .next t ∧ t.symCnt = s.symCnt + 1 ∧ t.frK = s.frK + 5 ∧
        Buffer.read t.syms s.symCnt = (encode i).setWidth 5 ∧
        (∀ k, k ≠ s.symCnt → Buffer.read t.syms k = Buffer.read s.syms k) ∧
        { t with syms := s.syms, symCnt := s.symCnt, frK := s.frK } = s

/-- R223 and R226: each of the sixteen even-parity words, as a candidate of the framer, ends framing and is not stored;
the next core step enters DECODE with the symbols framed before it. -/
def Obligations.InvalidWordsEndFraming : Prop :=
  ∀ i ∈ [Instr.invalid00, .invalid03, .invalid05, .invalid06, .invalid09, .invalid0A, .invalid0C, .invalid0F,
      .invalid11, .invalid12, .invalid14, .invalid17, .invalid18, .invalid1B, .invalid1D, .invalid1E],
    ∀ s : State, s.phase = .frame → s.entered = true →
      exec i s = .next { s with phase := .decode, entered := false }

/-- Symbol words outside a run (the model's choices): an even-parity word in `SYMS` is read by its character, as R241
and R256 read any word (log 13), and a symbol word run while no stage reads words stops the model by name (log 12). -/
def Obligations.WordsNoRunMeets : Prop :=
  (∀ (w : Symbol) (s : State), popcount w % 2 = 0 → s.phase = .decode →
      (s.entered = false → exec (decodeSymbol w) s = .next
        (if charOf w = startChar then s.enterForward w else s.enterReversed)) ∧
      (s.entered = true → exec (decodeSymbol w) s = .next
        (if charOf w = endChar then s.takeEnd (dataBits w) else s.takeData (dataBits w) (charOf w)))) ∧
    ∀ (w : Symbol) (s : State), (s.phase ≠ .frame ∨ s.entered = false) → s.phase ≠ .decode →
      exec (decodeSymbol w) s = .fault .symbolNotRead

/-! ### The segmenter -/

/-- The exact comparisons at the default factors (R43, R156, R160, R181, R182, R184, R203, D9): a block is active iff
8·p > 7·SW, a chunk quiet iff 16·c < 7·SW, an interval long iff 16·x > 3·ΣCWIN, and the threshold is held ten times. -/
def Obligations.DefaultComparisons : Prop :=
  (∀ p sw, isActive Config.params p sw = true ↔ 8 * p > 7 * sw) ∧
    (∀ c sw, isQuietChunk Config.params c sw = true ↔ 16 * c < 7 * sw) ∧
    (∀ x sc, isLong Config.params x sc = true ↔ 16 * x > 3 * sc) ∧
    (∀ s, aboveThr Config.params s = true ↔ 10 * signedSample s > (s.thr : Int)) ∧
    ∀ s : State, initThr Config.params s = 8 * ptp (Buffer.slice s.wave 0 (min 1000 s.waveLen)) ∧
      nextThr Config.params s = 5 * s.peak

/-- R151: between two blocks the segmenter first looks at the cancel latch; latched, it ends the invocation with
Cancelled and requests nothing; else it requests a block and changes nothing else. -/
def Obligations.CancelIsCheckedFirst : Prop :=
  ∀ (P : Params) (s : State), s.phase = .prime ∨ s.phase = .scan → s.waitBlk = false → s.blkHere = false →
    (s.cancelReq = true → ∃ t, coreStep P s = .next t ∧ Reports t .cancelled 0 ∧ OnlyResultChanged s t) ∧
      (s.cancelReq = false → coreStep P s = .next { s with waitBlk := true })

/-- R75 and R76: a delivery on an outstanding request writes exactly the block's samples, little-endian, clears
`WAIT_BLK` in the same step and changes nothing else. Until it comes (R75, R323), and in IDLE (R323, R332), the core takes
no step: a step of the model leaves the state as it is (the model's reading, log 5), so a result stands until the next
START. -/
def Obligations.DeliveryFillsTheBlock : Prop :=
  (∀ (P : Params) (s : State), s.waitBlk = true ∨ s.phase = .idle → coreStep P s = .next s) ∧
    ∀ (P : Params) (s : State), s.waitBlk = true →
      ∀ bytes rest, s.inputs = .port (.deliver bytes) :: rest → bytes.length = 2 * P.blockN →
        ∃ t, stepWith P s = .next t ∧ t.waitBlk = false ∧ t.blkHere = true ∧ t.inputs = rest ∧
          (∀ k < P.blockN, Buffer.read t.blk k = bytes.getD (2 * k + 1) 0#8 ++ bytes.getD (2 * k) 0#8) ∧
          (∀ k, P.blockN ≤ k → Buffer.read t.blk k = Buffer.read s.blk k) ∧
          { t with waitBlk := s.waitBlk, blkHere := s.blkHere, inputs := s.inputs, blk := s.blk } = s

/-- R77 and R344, 93 section 3, R143: the only moves the model refuses are deliveries without a request or of another
length and reads of `OUT` at an address that `OUT_ADDR` cannot carry, and it refuses all of those (log 10). The reserved
command is no such move: it has no effect (`Obligations.CancelNopAndReservedCommands`, log 14). -/
def Obligations.OnlyContractBreachesAreRefused : Prop :=
  (∀ (P : Params) (s : State) (r : Refusal), stepWith P s = .refused r →
      (∃ bytes rest, s.inputs = .port (.deliver bytes) :: rest ∧
        (s.waitBlk = false ∨ bytes.length ≠ 2 * P.blockN)) ∨
      ∃ k rest w, s.inputs = .port (.readOut k) :: rest ∧ indexWidth P = some w ∧ 2 ^ w ≤ k) ∧
    (∀ (P : Params) (s : State) bytes rest, s.inputs = .port (.deliver bytes) :: rest →
      (s.waitBlk = false → stepWith P s = .refused .deliveryWithoutRequest) ∧
        (s.waitBlk = true → bytes.length ≠ 2 * P.blockN → stepWith P s = .refused .deliveryLength)) ∧
    ∀ (P : Params) (s : State) (k w : Nat) rest, s.inputs = .port (.readOut k) :: rest →
      indexWidth P = some w → 2 ^ w ≤ k → stepWith P s = .refused .addressWidth

/-- R152 and R154: a priming block is never classified; its power enters the window at `PRIME_CNT`, its corrected
samples become the preceding idle block, its raw mean (rounded down) the next bias, and the block number `P_POW_WIN`
moves the core to SCAN. -/
def Obligations.PrimingBlock : Prop :=
  ∀ (P : Params) (s : State), s.phase = .prime → s.waitBlk = false → s.blkHere = true → s.primeCnt < P.powWin →
    ∃ t, coreStep P s = .next t ∧
      t.pwin = s.pwin.set s.primeCnt (ptp ((Buffer.slice s.blk 0 P.blockN).map BitVec.toInt)) ∧
      (∀ k < P.blockN, Buffer.read t.idleBuf k = (Buffer.read s.blk k).toInt - s.bias) ∧
      (∀ k, P.blockN ≤ k → Buffer.read t.idleBuf k = Buffer.read s.idleBuf k) ∧
      t.bias = ((Buffer.slice s.blk 0 P.blockN).map BitVec.toInt).sum / (P.blockN : Int) ∧
      t.primeCnt = s.primeCnt + 1 ∧ t.phase = (if s.primeCnt + 1 = P.powWin then .scan else .prime) ∧
      t.blkHere = false ∧
      { t with
        pwin := s.pwin, idleBuf := s.idleBuf, bias := s.bias, primeCnt := s.primeCnt, phase := s.phase
        blkHere := s.blkHere } = s

/-- R157: an active block is appended to the run and the baseline stays; at the capacity the invocation ends with
CaptureOverflow. -/
def Obligations.ActiveBlock : Prop :=
  ∀ (P : Params) (s : State), s.phase = .scan → s.waitBlk = false → s.blkHere = true →
    isActive P (ptp (rawBlock P s)) s.pwin.sum = true →
    (P.maxActive ≠ some s.actCnt →
      ∃ t, coreStep P s = .next t ∧ t.actCnt = s.actCnt + 1 ∧ t.bias = nextBias P s ∧ t.blkHere = false ∧
        (∀ k < P.blockN,
          Buffer.read t.actBuf (s.actCnt * P.blockN + k) = (Buffer.read s.blk k).toInt - s.bias) ∧
        (∀ a, a < s.actCnt * P.blockN ∨ (s.actCnt + 1) * P.blockN ≤ a →
          Buffer.read t.actBuf a = Buffer.read s.actBuf a) ∧
        { t with actBuf := s.actBuf, actCnt := s.actCnt, bias := s.bias, blkHere := s.blkHere } = s) ∧
    (P.maxActive = some s.actCnt →
      ∃ t, coreStep P s = .next t ∧ Reports t .captureOverflow 0 ∧
        OnlyResultChanged { s with bias := nextBias P s } t)

/-- R158 and R162: an idle block outside a run, or after a run of exactly one active block, pushes its power, becomes the
preceding idle block and leaves no run; scanning goes on. -/
def Obligations.IdleAndNoiseBlocks : Prop :=
  ∀ (P : Params) (s : State), s.phase = .scan → s.waitBlk = false → s.blkHere = true → s.actCnt ≤ 1 →
    isActive P (ptp (rawBlock P s)) s.pwin.sum = false →
    ∃ t, coreStep P s = .next t ∧ t.actCnt = 0 ∧ t.pwin = s.pwin.tail ++ [ptp (rawBlock P s)] ∧
      t.bias = nextBias P s ∧ t.blkHere = false ∧
      (∀ k < P.blockN, Buffer.read t.idleBuf k = (Buffer.read s.blk k).toInt - s.bias) ∧
      (∀ k, P.blockN ≤ k → Buffer.read t.idleBuf k = Buffer.read s.idleBuf k) ∧
      { t with
        actCnt := s.actCnt, pwin := s.pwin, bias := s.bias, blkHere := s.blkHere, idleBuf := s.idleBuf } = s

/-- R159: an idle block after two or more active blocks ends the event: the trimmed, corrected waveform is written, the
window stays, and the core hands off to DETECT. That `WAVE` stays as it was at and above `WAVE_LEN` is the model's choice
(log 21). -/
def Obligations.EventBlock : Prop :=
  ∀ (P : Params) (s : State), s.phase = .scan → s.waitBlk = false → s.blkHere = true → 2 ≤ s.actCnt →
    isActive P (ptp (rawBlock P s)) s.pwin.sum = false →
    ∃ t, coreStep P s = .next t ∧ t.phase = .detect ∧ t.entered = false ∧ t.bias = nextBias P s ∧
      t.blkHere = false ∧ Buffer.slice t.wave 0 t.waveLen = eventWave P s ∧
      (∀ k, t.waveLen ≤ k → Buffer.read t.wave k = Buffer.read s.wave k) ∧
      { t with
        phase := s.phase, entered := s.entered, bias := s.bias, blkHere := s.blkHere, wave := s.wave
        waveLen := s.waveLen } = s

/-- R155: the power of a block does not depend on the bias, which enters only the corrected samples. -/
def Obligations.PowerIgnoresTheBias : Prop :=
  ∀ (P : Params) (s : State), ptp (corrected P s) = ptp (rawBlock P s) ∧
    ∀ b : Int, blockPower P { s with bias := b } = ptp (corrected P s) ∧
      corrected P { s with bias := b } = (rawBlock P s).map fun x => x - b

/-- R160, R161 and R165: the trims drop a whole number of chunks from each end of the preceding idle block, the active
blocks and the terminating block; every dropped chunk is quiet, and what remains is shorter than a chunk or has a loud
chunk at both ends. -/
def Obligations.TrimDropsExactlyTheQuietEnds : Prop :=
  ∀ (P : Params) (s : State), P.wellFormed = true →
    (rawEvent P s).length = (s.actCnt + 2) * P.blockN ∧
    ∃ a b, a * P.trimChunk + b * P.trimChunk ≤ (rawEvent P s).length ∧
      trimmedEvent P s = ((rawEvent P s).drop (a * P.trimChunk)).take
        ((rawEvent P s).length - a * P.trimChunk - b * P.trimChunk) ∧
      (∀ i < a, isQuietChunk P (ptp (((rawEvent P s).drop (i * P.trimChunk)).take P.trimChunk)) s.pwin.sum = true) ∧
      (∀ j < b, isQuietChunk P (ptp (((rawEvent P s).drop
        ((rawEvent P s).length - (j + 1) * P.trimChunk)).take P.trimChunk)) s.pwin.sum = true) ∧
      (P.trimChunk ≤ (trimmedEvent P s).length →
        isQuietChunk P (ptp ((trimmedEvent P s).take P.trimChunk)) s.pwin.sum = false ∧
        isQuietChunk P (ptp ((trimmedEvent P s).drop ((trimmedEvent P s).length - P.trimChunk))) s.pwin.sum = false)

/-- R163: the final correction, of the trimmed buffer, subtracts one integer from every sample, the floor of the mean, so that
what remains of the sum is at least 0 and less than the number of samples; an empty waveform stays empty. -/
def Obligations.FinalCorrectionCentresTheWaveform : Prop :=
  (∀ (P : Params) (s : State), eventWave P s = finalBias (trimmedEvent P s)) ∧
  ∀ w : List Int, finalBias [] = [] ∧
    (w ≠ [] → ∃ fb : Int, finalBias w = w.map (fun x => x - fb) ∧ fb * w.length ≤ w.sum ∧
      w.sum < (fb + 1) * w.length ∧ 0 ≤ (finalBias w).sum ∧ (finalBias w).sum < w.length)

/-! ### The detector -/

/-- R180 and R181: entry into DETECT. The threshold is held scaled: at the default factors it is `THR10` = 8·ptp, at other
factors the scale is the model's (log 16). -/
def Obligations.DetectorEntry : Prop :=
  ∀ (P : Params) (s : State), s.phase = .detect → s.entered = false → s.waitBlk = false →
    (s.waveLen = 0 → coreStep P s = .next { s with ivlCnt := 0, phase := .recover }) ∧
      (0 < s.waveLen →
        coreStep P s = .next { s with
          ivlCnt := 0, detJ := 0, sign := false, peak := 0, havePrev := false, entered := true
          thr := P.initFactor.num * P.nextFactor.den *
            ptp (Buffer.slice s.wave 0 (min P.initWindow s.waveLen)) })

/-- R182 to R185, away from the last sample: a sample above the threshold opens or extends the run and keeps the first
index of its largest value; a sample at or below it ends an open run, recording the transition; otherwise nothing but
the index moves. With `v = WAVE[DET_J] × SIGN`, and the threshold held scaled: 10·v against `THR10` at the default
factors, the model's scale at others (log 16). -/
def Obligations.DetectorSample : Prop :=
  ∀ (P : Params) (s : State) (v : Int), s.phase = .detect → s.entered = true → s.waitBlk = false →
    s.detJ + 1 < s.waveLen → v = (if s.sign then -1 else 1) * Buffer.read s.wave s.detJ →
    ((s.thr : Int) < (P.initFactor.den * P.nextFactor.den : Nat) * v → v ≤ s.peak →
      coreStep P s = .next { s with detJ := s.detJ + 1 }) ∧
    ((s.thr : Int) < (P.initFactor.den * P.nextFactor.den : Nat) * v → s.peak < v →
      ∃ t, coreStep P s = .next t ∧ (t.peak : Int) = v ∧ t.peakIdx = s.detJ ∧ t.detJ = s.detJ + 1 ∧
        { t with peak := s.peak, peakIdx := s.peakIdx, detJ := s.detJ } = s) ∧
    ((P.initFactor.den * P.nextFactor.den : Nat) * v ≤ s.thr → s.peak ≠ 0 →
      (s.havePrev = true → s.prevIdx ≤ s.peakIdx) →
      ∃ t, coreStep P s = .next t ∧ t.prevIdx = s.peakIdx ∧ t.havePrev = true ∧ t.sign = !s.sign ∧ t.peak = 0 ∧
        t.thr = P.nextFactor.num * P.initFactor.den * s.peak ∧ t.detJ = s.detJ + 1 ∧
        (s.havePrev = false → t.ivlCnt = s.ivlCnt ∧ ∀ k, Buffer.read t.ivl k = Buffer.read s.ivl k) ∧
        (s.havePrev = true → t.ivlCnt = s.ivlCnt + 1 ∧ Buffer.read t.ivl s.ivlCnt = s.peakIdx - s.prevIdx ∧
          ∀ k, k ≠ s.ivlCnt → Buffer.read t.ivl k = Buffer.read s.ivl k) ∧
        { t with
          prevIdx := s.prevIdx, havePrev := s.havePrev, sign := s.sign, peak := s.peak, thr := s.thr
          detJ := s.detJ, ivlCnt := s.ivlCnt, ivl := s.ivl } = s) ∧
    ((P.initFactor.den * P.nextFactor.den : Nat) * v ≤ s.thr → s.peak = 0 →
      coreStep P s = .next { s with detJ := s.detJ + 1 })

/-- R186: the last sample of the waveform has the effect it would have inside a longer one, and hands off to RECOVER
besides; a run still open is discarded. -/
def Obligations.DetectorExit : Prop :=
  ∀ (P : Params) (s t : State), s.phase = .detect → s.entered = true → s.waitBlk = false → s.detJ + 1 = s.waveLen →
    coreStep P { s with waveLen := s.waveLen + 1 } = .next t →
    coreStep P s = .next { t with waveLen := s.waveLen, phase := .recover, entered := false }

/-- R188: a waveform whose initial window already holds a peak of each polarity, of the size of its largest sample,
yields no interval at the default factors. -/
def Obligations.LoudInitialWindowHidesEveryPeak : Prop :=
  ∀ (P : Params) (s : State) (a : Int) (i j : Nat), P.defaultFactors = true → AtStage .detect s → 0 < a →
    i < P.initWindow → i < s.waveLen → j < P.initWindow → j < s.waveLen →
    Buffer.read s.wave i = a → Buffer.read s.wave j = -a →
    (∀ k < s.waveLen, -a ≤ Buffer.read s.wave k ∧ Buffer.read s.wave k ≤ a) →
    ∃ t, runWith P (s.waveLen + 1) s = .next t ∧ t.phase = .recover ∧ t.entered = false ∧ t.ivlCnt = 0

/-! ### The recoverer -/

/-- R200 and R202: entry into RECOVER. -/
def Obligations.RecovererEntry : Prop :=
  ∀ (P : Params) (s : State), s.phase = .recover → s.entered = false → s.waitBlk = false →
    (s.ivlCnt < P.discard + P.clkWin → coreStep P s = .next { s with bitCnt := 0, phase := .frame }) ∧
      (P.discard + P.clkWin ≤ s.ivlCnt →
        coreStep P s = .next { s with
          cwin := Buffer.slice s.ivl P.discard P.clkWin, recI := 0, bitCnt := 0, entered := true })

/-- R203 to R206: with two intervals or more unconsumed, a long one gives bit 0 and pushes its length in half-units, a
short one gives bit 1, pushes twice its length and consumes the next one unexamined; with fewer, the core hands off to
FRAME. -/
def Obligations.RecovererClassification : Prop :=
  ∀ (P : Params) (s : State), s.phase = .recover → s.entered = true → s.waitBlk = false →
    (s.ivlCnt < P.discard + P.clkWin + s.recI + 2 →
      coreStep P s = .next { s with phase := .frame, entered := false }) ∧
    (P.discard + P.clkWin + s.recI + 2 ≤ s.ivlCnt →
      ∃ t, coreStep P s = .next t ∧ t.bitCnt = s.bitCnt + 1 ∧
        (∀ k, k ≠ s.bitCnt → Buffer.read t.bits k = Buffer.read s.bits k) ∧
        (isLong P (Buffer.read s.ivl (P.discard + P.clkWin + s.recI)) s.cwin.sum = true →
          Buffer.read t.bits s.bitCnt = false ∧ t.recI = s.recI + 1 ∧
            t.cwin = s.cwin.tail ++ [Buffer.read s.ivl (P.discard + P.clkWin + s.recI)]) ∧
        (isLong P (Buffer.read s.ivl (P.discard + P.clkWin + s.recI)) s.cwin.sum = false →
          Buffer.read t.bits s.bitCnt = true ∧ t.recI = s.recI + 2 ∧
            t.cwin = s.cwin.tail ++ [2 * Buffer.read s.ivl (P.discard + P.clkWin + s.recI)]) ∧
        { t with bits := s.bits, bitCnt := s.bitCnt, recI := s.recI, cwin := s.cwin } = s)

/-- R119 and R207 (f): the intervals the encoder makes of any bits, at any one nominal cell, recover exactly those bits,
after one 0 for every lead-in interval beyond the nine. The encoder appends one further interval (the model's, log 22). -/
def Obligations.SteadyIntervalsRecoverTheirBits : Prop :=
  ∀ (P : Params) (s : State) (T n last : Nat) (bs : List Bool), SteadyClock P → 0 < P.clkWin → 1 ≤ T →
    P.discard + P.clkWin ≤ n → AtRecover s (encodeIntervals T n last bs) →
    ∃ m t, runWith P m s = .next t ∧
      AtFrame t (List.replicate (n - (P.discard + P.clkWin)) false ++ bs)

/-! ### The framer -/

/-- R220 to R222: entry into FRAME without bits ends with EmptyCapture; with bits the run-out zeros are skipped, so that
the first framed bit is a 1 if there is one; with fewer than five bits left the core hands off to DECODE. -/
def Obligations.FramerEntryAndExit : Prop :=
  ∀ (P : Params) (s : State), s.phase = .frame → s.waitBlk = false →
    (s.entered = false → s.bitCnt = 0 →
      ∃ t, coreStep P s = .next t ∧ Reports t .emptyCapture 0 ∧ OnlyResultChanged s t) ∧
    (s.entered = false → 0 < s.bitCnt →
      ∃ t, coreStep P s = .next t ∧ t.symCnt = 0 ∧ t.entered = true ∧ t.frK ≤ s.bitCnt ∧
        (∀ k < t.frK, Buffer.read s.bits k = false) ∧
        (t.frK < s.bitCnt → Buffer.read s.bits t.frK = true) ∧
        { t with symCnt := s.symCnt, frK := s.frK, entered := s.entered } = s) ∧
    (s.entered = true → s.bitCnt < s.frK + 5 →
      coreStep P s = .next { s with phase := .decode, entered := false })

/-- R118 and R224: the bits of any valid words, the first with a 1 in `SYM[0]`, between any run-out zeros, frame to
exactly those words. -/
def Obligations.BitsFrameToTheirWords : Prop :=
  ∀ (P : Params) (s : State) (a b : Nat) (w : Symbol) (ws : List Symbol),
    (∀ x ∈ w :: ws, popcount x % 2 = 1) → w.getLsbD 0 = true → AtFrame s (encodeBits a b (w :: ws)) →
    ∃ m t, runWith P m s = .next t ∧ AtDecode t (w :: ws)

/-! ### The decoder -/

/-- R240 and R245: an empty symbol sequence ends with EmptyCapture at the entry of DECODE; a sequence that is exhausted
before `?` ends with MissingEndSentinel. -/
def Obligations.DecoderRunsOutOfSymbols : Prop :=
  ∀ (P : Params) (s : State), s.phase = .decode → s.waitBlk = false →
    (s.entered = false → s.symCnt = 0 →
      ∃ t, coreStep P s = .next t ∧ Reports t .emptyCapture 0 ∧ OnlyResultChanged s t) ∧
    (s.entered = true → s.symCnt ≤ s.decJ →
      ∃ t, coreStep P s = .next t ∧ Reports t .missingEndSentinel 0 ∧ OnlyResultChanged s t)

/-- R117, R249 and R250: the words the encoder makes of any data text decode to OK with that text, whatever symbols
follow the LRC. -/
def Obligations.EncodedTextDecodes : Prop :=
  ∀ (P : Params) (s : State) (d : List Byte) (extra : List Symbol), DataText d →
    AtDecode s (encodeText (trackText d) ++ extra) → EndsWith P s .ok d

/-- §8 and R254: the whole back end. The intervals of any encoded data text, at any one nominal cell, with any run-out,
decode to OK with that text. The encoder appends one further interval (the model's, log 22). -/
def Obligations.EncodedSwipeDecodes : Prop :=
  ∀ (P : Params) (s : State) (d : List Byte) (T n last a b : Nat), SteadyClock P → 0 < P.clkWin → 1 ≤ T →
    P.discard + P.clkWin ≤ n → DataText d →
    AtRecover s (encodeIntervals T n last (encodeBits a b (encodeText (trackText d)))) → EndsWith P s .ok d

/-- R252: the symbol-level reversal of a valid stream decodes to the same text exactly when its LRC is not 0x1A. -/
def Obligations.SymbolReversalIsInvisibleUnlessLrcIs1A : Prop :=
  ∀ (P : Params) (s : State) (d : List Byte), DataText d →
    AtDecode s ((encodeText (trackText d)).reverse.map rev) → (EndsWith P s .ok d ↔ lrcOf d ≠ 0x1A#5)

/-- R253: a reversed swipe, bit by bit, decodes to the same text when the parity bit of the LRC is 1 and the LRC is not
0x1A. -/
def Obligations.BitReversalIsInvisibleWithALrcParityBit : Prop :=
  ∀ (P : Params) (s : State) (d : List Byte) (a b : Nat), DataText d → (lrcOf d).getLsbD 4 = true →
    lrcOf d ≠ 0x1A#5 → AtFrame s (encodeBits a b (encodeText (trackText d))).reverse → EndsWith P s .ok d

/-- R256, where the flip does not make a `?`: flipping one data bit of one data symbol in `SYMS` gives BadLRC. -/
def Obligations.FlippedDataBitGivesBadLrc : Prop :=
  ∀ (P : Params) (s : State) (d : List Byte) (j k : Nat) (w : Symbol), DataText d → j < d.length → k < 4 →
    (encodeText (trackText d))[j + 1]? = some w → charOf (w ^^^ (1#5 <<< k)) ≠ endChar →
    AtDecode s ((encodeText (trackText d)).set (j + 1) (w ^^^ (1#5 <<< k))) → EndsWith P s .badLrc []

/-- R256 without that exception. Expected to fail: a flip that makes a `?` ends the body early, and the symbol after it
may equal the accumulator (`;>4?`). -/
def Obligations.AnyFlippedDataBitGivesBadLrc : Prop :=
  ∀ (P : Params) (s : State) (d : List Byte) (j k : Nat) (w : Symbol), DataText d → j < d.length → k < 4 →
    (encodeText (trackText d))[j + 1]? = some w →
    AtDecode s ((encodeText (trackText d)).set (j + 1) (w ^^^ (1#5 <<< k))) → EndsWith P s .badLrc []

/-! ### The whole machine -/

/-- R300 and R301: an invocation ends only in a step of the core (the head of the tape, if any, gives the core its turn),
and only for one of the nine causes, with its code; only
OK reports characters. -/
def Obligations.OutcomesHaveTheirCauses : Prop :=
  ∀ (P : Params) (s t : State), s.done = false → stepWith P s = .next t → t.done = true →
    (s.inputs = [] ∨ ∃ rest, s.inputs = .core :: rest) ∧
    s.waitBlk = false ∧ (t.resultCode ≠ .ok → t.resultLen = 0) ∧ (t.resultCode = .ok → t.resultLen = t.outLen) ∧
    ((t.resultCode = .ok ∧ s.phase = .decode ∧ s.entered = true ∧ s.decJ + 1 < s.symCnt ∧
        charOf (decodedSym s s.decJ) = endChar ∧ decodedSym s (s.decJ + 1) = t.acc) ∨
      (t.resultCode = .emptyCapture ∧ s.phase = .frame ∧ s.entered = false ∧ s.bitCnt = 0) ∨
      (t.resultCode = .emptyCapture ∧ s.phase = .decode ∧ s.entered = false ∧ s.symCnt = 0) ∨
      (t.resultCode = .missingStartSentinel ∧ s.phase = .decode ∧ s.entered = false ∧ 0 < s.symCnt ∧
        charOf (Buffer.read s.syms 0) ≠ startChar ∧ charOf (rev (Buffer.read s.syms (s.symCnt - 1))) ≠ startChar) ∨
      (t.resultCode = .missingEndSentinel ∧ s.phase = .decode ∧ s.entered = true ∧ s.symCnt ≤ s.decJ) ∨
      (t.resultCode = .badLrc ∧ s.phase = .decode ∧ s.entered = true ∧ s.decJ < s.symCnt ∧
        charOf (decodedSym s s.decJ) = endChar ∧ s.symCnt ≤ s.decJ + 1) ∨
      (t.resultCode = .badLrc ∧ s.phase = .decode ∧ s.entered = true ∧ s.decJ + 1 < s.symCnt ∧
        charOf (decodedSym s s.decJ) = endChar ∧ decodedSym s (s.decJ + 1) ≠ t.acc) ∨
      (t.resultCode = .cancelled ∧ (s.phase = .prime ∨ s.phase = .scan) ∧ s.cancelReq = true ∧
        s.blkHere = false) ∨
      (t.resultCode = .captureOverflow ∧ s.phase = .scan ∧ P.maxActive = some s.actCnt ∧
        isActive P (blockPower P s) s.windowSum = true))

/-- R137: a step leaves the phase, moves it to the next one of PRIME, SCAN, DETECT, RECOVER, FRAME, DECODE, begins an
invocation, or ends one: by an outcome, or by the platform's reset. -/
def Obligations.PhasesAdvanceInOrder : Prop :=
  ∀ (P : Params) (s t : State), stepWith P s = .next t →
    t.phase = s.phase ∨ (s.phase = .idle ∧ t.phase = .prime) ∨ (s.phase = .prime ∧ t.phase = .scan) ∨
      (s.phase = .scan ∧ t.phase = .detect) ∨ (s.phase = .detect ∧ t.phase = .recover) ∨
      (s.phase = .recover ∧ t.phase = .frame) ∨ (s.phase = .frame ∧ t.phase = .decode) ∨
      (t.phase = .idle ∧ (t.done = true ∨ ∃ rest, s.inputs = .port .reset :: rest))

/-- R140: from the hand-off to DETECT an outcome is raised within a bounded number of core steps, for every waveform and
whatever the registers and buffers hold. -/
def Obligations.HandedOffInvocationsEnd : Prop :=
  ∀ (P : Params) (s : State), AtStage .detect s →
    ∃ n t, n ≤ 4 * s.waveLen + 8 ∧ runWith P n s = .next t ∧ t.phase = .idle ∧ t.done = true

/-- R7, R59 and R80: nothing of an earlier invocation reaches the next one. Two idle blocks whose stale registers and
buffers differ in any way, given the same moves from a START on, look the same to the host and the Source for ever. -/
def Obligations.NothingCarriesOver : Prop :=
  ∀ (P : Params) (s t : State) (rest : List Move) (n : Nat), P.wellFormed = true →
    s.phase = .idle → t.phase = .idle → s.pwin.length = P.powWin → t.pwin.length = P.powWin →
    s.inputs = .command 0b01#2 :: rest → t.inputs = .command 0b01#2 :: rest →
    OutcomesLookSame (runWith P (n + 1) s) (runWith P (n + 1) t)

/-- R142: on a silent Source the segmenter requests blocks for ever: after any number of blocks of zeros it is still
scanning, without a result, a latched cancel or a block in hand, so that it requests the next one. -/
def Obligations.SilenceIsScannedForEver : Prop :=
  ∀ (P : Params) (s : State) (n : Nat), P.wellFormed = true → s.phase = .scan → s.waitBlk = false →
    s.blkHere = false → s.cancelReq = false → s.done = false → s.actCnt ≤ 1 →
    s.inputs = (List.replicate n [Move.core, .port (.deliver (List.replicate (2 * P.blockN) 0#8)), .core]).flatten →
    ∃ t, runWith P (3 * n) s = .next t ∧ t.phase = .scan ∧ t.done = false ∧ t.waitBlk = false ∧
      t.blkHere = false ∧ t.cancelReq = false ∧ t.inputs = []

/-- R38: the layout of `STATUS`, and 0x0000 at reset, with the codes of R31 and R112 in its fields. -/
def Obligations.StatusLayout : Prop :=
  State.reset.status = 0x0000#16 ∧ ∀ s : State, (s.status.getLsbD 0 = true ↔ s.phase ≠ .idle) ∧ s.status.getLsbD 1 = s.done ∧
    s.status.getLsbD 2 = s.cancelReq ∧ s.status.getLsbD 3 = s.waitBlk ∧
    s.status.extractLsb' 4 3 = phaseCode s.phase ∧ s.status.getLsbD 7 = false ∧
    s.status.extractLsb' 8 3 = resultBits s.resultCode ∧ s.status.extractLsb' 11 5 = 0#5 ∧
    (s.phase = .idle → s.status.extractLsb' 4 3 = 0#3) ∧ (s.phase = .prime → s.status.extractLsb' 4 3 = 1#3) ∧
    (s.phase = .scan → s.status.extractLsb' 4 3 = 2#3) ∧ (s.phase = .detect → s.status.extractLsb' 4 3 = 3#3) ∧
    (s.phase = .recover → s.status.extractLsb' 4 3 = 4#3) ∧ (s.phase = .frame → s.status.extractLsb' 4 3 = 5#3) ∧
    (s.phase = .decode → s.status.extractLsb' 4 3 = 6#3) ∧ (s.phase = .reserved → s.status.extractLsb' 4 3 = 7#3) ∧
    (s.resultCode = .ok → s.status.extractLsb' 8 3 = 0#3) ∧
    (s.resultCode = .emptyCapture → s.status.extractLsb' 8 3 = 1#3) ∧
    (s.resultCode = .missingStartSentinel → s.status.extractLsb' 8 3 = 2#3) ∧
    (s.resultCode = .missingEndSentinel → s.status.extractLsb' 8 3 = 3#3) ∧
    (s.resultCode = .badLrc → s.status.extractLsb' 8 3 = 4#3) ∧
    (s.resultCode = .cancelled → s.status.extractLsb' 8 3 = 5#3) ∧
    (s.resultCode = .captureOverflow → s.status.extractLsb' 8 3 = 6#3) ∧
    (s.resultCode = .reserved → s.status.extractLsb' 8 3 = 7#3)

/-- R136 and R89: a host read, of `OUT` at any address its port can carry, changes no register and no buffer; below `RESULT_LEN` and with `DONE` = 1 a read of `OUT`
gives the character there (elsewhere any byte, log 3). -/
def Obligations.HostReadsChangeNothing : Prop :=
  ∀ (P : Params) (s : State) (rest : List Move),
    (s.inputs = .port .readStatus :: rest → s.resultCode ≠ .reserved →
      stepWith P s = .next { s with inputs := rest, hostSaw := .status s.status }) ∧
    (s.inputs = .port .readLen :: rest →
      stepWith P s = .next { s with inputs := rest, hostSaw := .len s.resultLen }) ∧
    ∀ k, s.inputs = .port (.readOut k) :: rest → (∀ w, indexWidth P = some w → k < 2 ^ w) →
      ∃ t, stepWith P s = .next t ∧
        (s.done = true → k < s.resultLen → t.hostSaw = .out (Buffer.read s.out k)) ∧
        { t with inputs := s.inputs, hostSaw := s.hostSaw, freeCnt := s.freeCnt } = s

/-- R330 and R331: `RST` in any state leaves an idle core with no result, no request and `STATUS` 0x0000, and the
samples not delivered stay in their stream; so does power-on. -/
def Obligations.ResetLeavesAnIdleCore : Prop :=
  (∀ (P : Params) (s : State) (rest : List Move), s.inputs = .port .reset :: rest →
      ∃ t, stepWith P s = .next t ∧ t.phase = .idle ∧ t.done = false ∧ t.cancelReq = false ∧ t.waitBlk = false ∧
        t.resultCode = .ok ∧ t.resultLen = 0 ∧ t.status = 0x0000#16 ∧ t.inputs = rest) ∧
    State.reset.phase = .idle ∧ State.reset.done = false ∧ State.reset.cancelReq = false ∧
    State.reset.waitBlk = false ∧ State.reset.resultCode = .ok ∧ State.reset.resultLen = 0 ∧
    State.reset.status = 0x0000#16

/-! ### Invariants -/

/-- At reset every invariant holds, the buffers are in canonical form, and the default parameters are well formed; the
threshold register's bound is the 2097120 of R47 (the zero values it starts from are the model's, log 1). -/
def Obligations.ResetHasTheInvariants : Prop :=
  (∀ P : Params, ControlOk (State.resetFor P) ∧ RangesOk P (State.resetFor P) ∧
      WidthsOk P (State.resetFor P) ∧ StageOk P (State.resetFor P) ∧ Memory.wf (State.resetFor P) = true) ∧
    Config.params.wellFormed = true ∧ thrBound Config.params = 2097120

/-- R31 to R37, R112, R137: every step keeps the control registers legal and consistent; a latched cancel, which R133
lets stand through DETECT to DECODE, is never one of an idle core. -/
def Obligations.StepsKeepControl : Prop :=
  ∀ (P : Params) (s t : State), ControlOk s → stepWith P s = .next t → ControlOk t

/-- R27 and R324: no value the rules compute leaves its stated width: the value registers from every state in range, the
registers of `IW` bits (R24, R143) from every state in range whose counts and indexes are related as the stages keep
them. -/
def Obligations.StepsKeepRanges : Prop :=
  (∀ (P : Params) (s t : State), P.wellFormed = true → RangesOk P s → stepWith P s = .next t → RangesOk P t) ∧
    ∀ (P : Params) (s t : State), P.wellFormed = true → RangesOk P s → StageOk P s → WidthsOk P s →
      stepWith P s = .next t → WidthsOk P t

/-- R24, R79, R165, R187, R207, R226, R227, R250: every step keeps the relations between the counts, indexes and
buffers of the stages. -/
def Obligations.StepsKeepStages : Prop :=
  ∀ (P : Params) (s t : State), P.wellFormed = true → ControlOk s → StageOk P s → stepWith P s = .next t → StageOk P t

/-- Every step keeps all eight buffers in the one canonical form (log 2). -/
def Obligations.StepsKeepCanonicalBuffers : Prop :=
  ∀ (P : Params) (s t : State), Memory.wf s = true → stepWith P s = .next t → Memory.wf t = true

/-- R324: the core has no fault. In a state that keeps the invariants no step answers with one. -/
def Obligations.TheCoreHasNoFault : Prop :=
  ∀ (P : Params) (s : State) (r : Fault), P.wellFormed = true → ControlOk s → StageOk P s → stepWith P s ≠ .fault r

/-- R24 and R88: with a finite capacity every buffer stays within it. `IW` is the least width that holds `L_MAX`. From every
state with the invariants a step leads to one in which the run and the waveform fit `L_MAX`, there are fewer intervals than
half of it, no more bits than intervals, five bits to a symbol and fewer characters than symbols, each buffer from the step
on that begins to fill it; the state after reset is such a state. -/
def Obligations.BuffersStayWithinCapacity : Prop :=
  (∀ (P : Params) (m : Nat), P.wellFormed = true → P.maxActive = some m →
      ∃ w, indexWidth P = some w ∧ (m + 2) * P.blockN < 2 ^ w ∧ 2 ^ (w - 1) ≤ (m + 2) * P.blockN) ∧
    (∀ (P : Params) (s t : State) (m : Nat), P.wellFormed = true → P.maxActive = some m → ControlOk s → RangesOk P s →
      StageOk P s → stepWith P s = .next t → WithinCapacity P ((m + 2) * P.blockN) t) ∧
    ∀ (P : Params) (m : Nat), P.maxActive = some m → WithinCapacity P ((m + 2) * P.blockN) (State.resetFor P)
end

