-- ==== Sys2Proof/Laws/Buffer.lean ====
section
/-! SUPPORT. The buffer operations: what a read gives after a write, what a slice holds, and that every write keeps
the canonical form. The read laws hold of every buffer, canonical or not. -/

namespace Sys2Proof.Machine

variable {α : Type} [Inhabited α]

/-! ### Reading -/

@[simp] theorem Buffer.read_nil (i : Nat) : Buffer.read ([] : Buffer α) i = unwritten := rfl

theorem Buffer.read_cons (a : Nat) (v : α) (b : Buffer α) (i : Nat) :
    Buffer.read ((a, v) :: b) i = if a = i then v else Buffer.read b i := rfl

theorem Buffer.read_append_of_absent (b c : Buffer α) (i : Nat) (h : ∀ x ∈ b, x.1 ≠ i) :
    Buffer.read (b ++ c) i = Buffer.read c i := by
  induction b with
  | nil => rfl
  | cons x b ih =>
    obtain ⟨a, v⟩ := x
    rw [List.cons_append, read_cons, if_neg (h (a, v) (by simp)), ih fun y hy => h y (by simp [hy])]

theorem Buffer.read_append_of_absent_right (b c : Buffer α) (i : Nat) (h : ∀ x ∈ c, x.1 ≠ i) :
    Buffer.read (b ++ c) i = Buffer.read b i := by
  induction b with
  | nil => simpa using read_append_of_absent c [] i h
  | cons x b ih =>
    obtain ⟨a, v⟩ := x
    rw [List.cons_append, read_cons, read_cons, ih]

theorem Buffer.read_filter_of_kept (b : Buffer α) (p : Nat → Bool) (i : Nat) (h : p i = true) :
    Buffer.read (b.filter fun c => p c.1) i = Buffer.read b i := by
  induction b with
  | nil => rfl
  | cons x b ih =>
    obtain ⟨a, v⟩ := x
    by_cases hi : a = i
    · simp [hi, h, read_cons]
    · cases hp : p a <;> simp [hp, read_cons, hi, ih]

/-! ### Writing -/

variable [DecidableEq α]

theorem Buffer.index_of_mem_cellsFrom (base : Nat) (vs : List α) :
    ∀ x ∈ Buffer.cellsFrom base vs, base ≤ x.1 ∧ x.1 < base + vs.length ∧ x.2 ≠ unwritten := by
  induction vs generalizing base with
  | nil => simp [cellsFrom]
  | cons v vs ih =>
    intro x hx
    unfold cellsFrom at hx
    have hrest := ih (base + 1)
    split at hx
    · have := hrest x hx; simp only [List.length_cons]; exact ⟨by omega, by omega, this.2.2⟩
    · rcases List.mem_cons.mp hx with rfl | hx
      · simp_all
      · have := hrest x hx; simp only [List.length_cons]; exact ⟨by omega, by omega, this.2.2⟩

theorem Buffer.read_cellsFrom (base : Nat) (vs : List α) (k : Nat) (h : k < vs.length) :
    Buffer.read (Buffer.cellsFrom base vs) (base + k) = vs[k] := by
  induction vs generalizing base k with
  | nil => simp at h
  | cons v vs ih =>
    cases k with
    | zero =>
      unfold cellsFrom
      split
      · rename_i hv
        have := read_append_of_absent (cellsFrom (base + 1) vs) [] base fun x hx => by
          have := index_of_mem_cellsFrom (base + 1) vs x hx; omega
        simpa [hv] using this
      · simp [read_cons]
    | succ k =>
      have := ih (base + 1) k (by simpa using h)
      rw [show base + 1 + k = base + (k + 1) by omega] at this
      unfold cellsFrom
      split
      · simpa using this
      · rw [read_cons, if_neg (by omega)]; simpa using this

/-- A read after a block write, inside the block: the value written there. -/
theorem Buffer.read_writeList_inside (b : Buffer α) (base : Nat) (vs : List α) (k : Nat) (h : k < vs.length) :
    Buffer.read (Buffer.writeList b base vs) (base + k) = vs[k] := by
  unfold writeList
  rw [read_append_of_absent_right _ _ _ (by intro x hx; simp at hx; omega),
    read_append_of_absent _ _ _ (by intro x hx; simp at hx; omega), read_cellsFrom _ _ _ h]

/-- A read after a block write, outside the block: what was there before. -/
theorem Buffer.read_writeList_outside (b : Buffer α) (base : Nat) (vs : List α) (i : Nat)
    (h : i < base ∨ base + vs.length ≤ i) : Buffer.read (Buffer.writeList b base vs) i = Buffer.read b i := by
  unfold writeList
  rcases h with h | h
  · rw [List.append_assoc, read_append_of_absent_right]
    · exact read_filter_of_kept b (fun a => decide (a < base)) i (by simpa using h)
    · intro x hx
      rcases List.mem_append.mp hx with hx | hx
      · have := index_of_mem_cellsFrom base vs x hx; omega
      · simp at hx; omega
  · rw [read_append_of_absent]
    · exact read_filter_of_kept b (fun a => decide (base + vs.length ≤ a)) i (by simpa using h)
    · intro x hx
      rcases List.mem_append.mp hx with hx | hx
      · simp at hx; omega
      · have := index_of_mem_cellsFrom base vs x hx; omega

@[simp] theorem Buffer.read_write_same (b : Buffer α) (i : Nat) (v : α) :
    Buffer.read (Buffer.write b i v) i = v := by
  simpa [write] using read_writeList_inside b i [v] 0 (by simp)

theorem Buffer.read_write_other (b : Buffer α) (i k : Nat) (v : α) (h : k ≠ i) :
    Buffer.read (Buffer.write b i v) k = Buffer.read b k :=
  read_writeList_outside b i [v] k (by simp; omega)

/-! ### Slices -/

omit [DecidableEq α] in
@[simp] theorem Buffer.slice_length (b : Buffer α) (base n : Nat) : (Buffer.slice b base n).length = n := by
  simp [slice]

omit [DecidableEq α] in
@[simp] theorem Buffer.slice_getElem (b : Buffer α) (base n k : Nat) (h : k < (Buffer.slice b base n).length) :
    (Buffer.slice b base n)[k] = Buffer.read b (base + k) := by
  simp [slice]

omit [DecidableEq α] in
/-- Two slices agree when their elements do. -/
theorem Buffer.slice_congr (b c : Buffer α) (base n : Nat)
    (h : ∀ k < n, Buffer.read b (base + k) = Buffer.read c (base + k)) :
    Buffer.slice b base n = Buffer.slice c base n := by
  apply List.ext_getElem <;> simp_all

omit [DecidableEq α] in
theorem Buffer.slice_succ (b : Buffer α) (base n : Nat) :
    Buffer.slice b base (n + 1) = Buffer.slice b base n ++ [Buffer.read b (base + n)] := by
  simp [slice, List.range_succ]

/-- A slice over a block that was written is what was written. -/
theorem Buffer.slice_writeList (b : Buffer α) (base : Nat) (vs : List α) :
    Buffer.slice (Buffer.writeList b base vs) base vs.length = vs := by
  apply List.ext_getElem
  · simp
  · intro k h _
    rw [slice_getElem, read_writeList_inside]

/-- Appending at the count extends the list below the count by one element. -/
theorem Buffer.slice_write_end (b : Buffer α) (n : Nat) (v : α) :
    Buffer.slice (Buffer.write b n v) 0 (n + 1) = Buffer.slice b 0 n ++ [v] := by
  rw [slice_succ, Nat.zero_add, read_write_same]
  congr 1
  exact slice_congr _ _ _ _ fun k hk => read_write_other _ _ _ _ (by omega)

/-! ### The canonical form -/

theorem Buffer.wf_nil : Buffer.wf ([] : Buffer α) = true := by simp [wf]

theorem Buffer.pairwise_cellsFrom (base : Nat) (vs : List α) :
    (Buffer.cellsFrom base vs).Pairwise fun x y => x.1 < y.1 := by
  induction vs generalizing base with
  | nil => exact List.Pairwise.nil
  | cons v vs ih =>
    unfold cellsFrom
    split
    · exact ih _
    · exact List.Pairwise.cons
        (fun y hy => by have := index_of_mem_cellsFrom (base + 1) vs y hy; simp only; omega) (ih _)

/-- A block write keeps the canonical form. -/
theorem Buffer.wf_writeList (b : Buffer α) (base : Nat) (vs : List α) (h : Buffer.wf b = true) :
    Buffer.wf (Buffer.writeList b base vs) = true := by
  simp only [wf, Bool.and_eq_true, decide_eq_true_eq, List.all_eq_true, bne_iff_ne] at h ⊢
  obtain ⟨hp, hv⟩ := h
  have hc := index_of_mem_cellsFrom base vs
  refine ⟨?_, ?_⟩
  · unfold writeList
    rw [List.pairwise_append, List.pairwise_append]
    refine ⟨⟨hp.filter _, pairwise_cellsFrom base vs, ?_⟩, hp.filter _, ?_⟩
    · intro x hx y hy
      have := hc y hy
      simp at hx
      omega
    · intro x hx y hy
      simp only [List.mem_filter, decide_eq_true_eq] at hy
      rcases List.mem_append.mp hx with hx | hx
      · simp at hx; omega
      · have := hc x hx; omega
  · intro x hx
    simp only [writeList, List.mem_append, List.mem_filter] at hx
    rcases hx with (hx | hx) | hx
    · exact hv x hx.1
    · exact (hc x hx).2.2
    · exact hv x hx.1

/-- An element write keeps the canonical form. -/
theorem Buffer.wf_write (b : Buffer α) (i : Nat) (v : α) (h : Buffer.wf b = true) :
    Buffer.wf (Buffer.write b i v) = true :=
  wf_writeList b i [v] h

end Sys2Proof.Machine
end

