-- ==== Sys2Proof/Laws/PerInstr.lean ====
section
/-! SUPPORT. The per-instruction families: one lemma per constructor of `Instr`. -/

namespace Sys2Proof.Laws.EncodingWidth

/-- The word of an instruction has no bit above its space: five bits of a symbol word (R103), two of a command code
(R110). -/
def Statement (i : Instr) : Prop :=
  (encode i).toNat < (if spaceOf i = .symbol then 32 else 4)

theorem digit0 : Statement .digit0 := by unfold Statement; decide
theorem digit1 : Statement .digit1 := by unfold Statement; decide
theorem digit2 : Statement .digit2 := by unfold Statement; decide
theorem digit3 : Statement .digit3 := by unfold Statement; decide
theorem digit4 : Statement .digit4 := by unfold Statement; decide
theorem digit5 : Statement .digit5 := by unfold Statement; decide
theorem digit6 : Statement .digit6 := by unfold Statement; decide
theorem digit7 : Statement .digit7 := by unfold Statement; decide
theorem digit8 : Statement .digit8 := by unfold Statement; decide
theorem digit9 : Statement .digit9 := by unfold Statement; decide
theorem colon : Statement .colon := by unfold Statement; decide
theorem startSentinel : Statement .startSentinel := by unfold Statement; decide
theorem less : Statement .less := by unfold Statement; decide
theorem fieldSep : Statement .fieldSep := by unfold Statement; decide
theorem greater : Statement .greater := by unfold Statement; decide
theorem endSentinel : Statement .endSentinel := by unfold Statement; decide
theorem invalid00 : Statement .invalid00 := by unfold Statement; decide
theorem invalid03 : Statement .invalid03 := by unfold Statement; decide
theorem invalid05 : Statement .invalid05 := by unfold Statement; decide
theorem invalid06 : Statement .invalid06 := by unfold Statement; decide
theorem invalid09 : Statement .invalid09 := by unfold Statement; decide
theorem invalid0A : Statement .invalid0A := by unfold Statement; decide
theorem invalid0C : Statement .invalid0C := by unfold Statement; decide
theorem invalid0F : Statement .invalid0F := by unfold Statement; decide
theorem invalid11 : Statement .invalid11 := by unfold Statement; decide
theorem invalid12 : Statement .invalid12 := by unfold Statement; decide
theorem invalid14 : Statement .invalid14 := by unfold Statement; decide
theorem invalid17 : Statement .invalid17 := by unfold Statement; decide
theorem invalid18 : Statement .invalid18 := by unfold Statement; decide
theorem invalid1B : Statement .invalid1B := by unfold Statement; decide
theorem invalid1D : Statement .invalid1D := by unfold Statement; decide
theorem invalid1E : Statement .invalid1E := by unfold Statement; decide
theorem nop : Statement .nop := by unfold Statement; decide
theorem start : Statement .start := by unfold Statement; decide
theorem cancel : Statement .cancel := by unfold Statement; decide
theorem reservedCmd : Statement .reservedCmd := by unfold Statement; decide

end Sys2Proof.Laws.EncodingWidth
end

