-- ==== Sys2Proof/Laws/Samples.lean ====
section
/-! SUPPORT. The samples of a block: their number, their values, and the peak-to-peak amplitude. -/

namespace Sys2Proof.Machine

/-! ### Deliveries -/

theorem samplesOfBytes_length (n : Nat) (bytes : List Byte) (h : bytes.length = 2 * n) :
    (samplesOfBytes bytes).length = n := by
  induction n generalizing bytes with
  | zero => have := List.eq_nil_of_length_eq_zero h; subst this; rfl
  | succ n ih =>
    match bytes, h with
    | lo :: hi :: rest, h => simp [samplesOfBytes, ih rest (by simp at h; omega)]

/-- Sample k is made of byte 2k, low, and byte 2k + 1, high (R76). -/
theorem samplesOfBytes_getElem (n : Nat) (bytes : List Byte) (h : bytes.length = 2 * n) (k : Nat)
    (hk : k < (samplesOfBytes bytes).length) :
    (samplesOfBytes bytes)[k] = bytes.getD (2 * k + 1) 0#8 ++ bytes.getD (2 * k) 0#8 := by
  induction n generalizing bytes k with
  | zero => rw [samplesOfBytes_length 0 bytes h] at hk; omega
  | succ n ih =>
    match bytes, h with
    | lo :: hi :: rest, h =>
      cases k with
      | zero => simp [samplesOfBytes]
      | succ k =>
        have := ih rest (by simp at h; omega) k (by simpa [samplesOfBytes] using hk)
        simpa [samplesOfBytes, Nat.mul_add] using this

/-! ### Blocks -/

@[simp] theorem rawBlock_length (P : Params) (s : State) : (rawBlock P s).length = P.blockN := by
  simp [rawBlock]

@[simp] theorem corrected_length (P : Params) (s : State) : (corrected P s).length = P.blockN := by
  simp [corrected]

@[simp] theorem rawBlock_getElem (P : Params) (s : State) (k : Nat) (h : k < (rawBlock P s).length) :
    (rawBlock P s)[k] = (Buffer.read s.blk k).toInt := by simp [rawBlock]

@[simp] theorem corrected_getElem (P : Params) (s : State) (k : Nat) (h : k < (corrected P s).length) :
    (corrected P s)[k] = (Buffer.read s.blk k).toInt - s.bias := by simp [corrected]

/-- A raw sample is a signed 16-bit value (R101). -/
theorem rawBlock_range (P : Params) (s : State) : ∀ x ∈ rawBlock P s, -32768 ≤ x ∧ x ≤ 32767 := by
  intro x hx
  obtain ⟨w, -, rfl⟩ := List.mem_map.mp hx
  have h₁ := BitVec.toInt_lt (x := w)
  have h₂ := BitVec.le_toInt (x := w)
  constructor <;> omega

/-! ### Peak-to-peak amplitude -/

theorem foldl_max_spec (l : List Int) (x : Int) :
    x ≤ l.foldl max x ∧ (∀ y ∈ l, y ≤ l.foldl max x) ∧ (l.foldl max x = x ∨ l.foldl max x ∈ l) := by
  induction l generalizing x with
  | nil => simp
  | cons y l ih =>
    obtain ⟨h₁, h₂, h₃⟩ := ih (max x y)
    simp only [List.foldl_cons, List.mem_cons, forall_eq_or_imp]
    refine ⟨by omega, ⟨by omega, h₂⟩, ?_⟩
    rcases h₃ with h | h
    · rw [h]; rcases Int.le_total x y with hxy | hxy
      · exact .inr (.inl (by omega))
      · exact .inl (by omega)
    · exact .inr (.inr h)

theorem foldl_min_spec (l : List Int) (x : Int) :
    l.foldl min x ≤ x ∧ (∀ y ∈ l, l.foldl min x ≤ y) ∧ (l.foldl min x = x ∨ l.foldl min x ∈ l) := by
  induction l generalizing x with
  | nil => simp
  | cons y l ih =>
    obtain ⟨h₁, h₂, h₃⟩ := ih (min x y)
    simp only [List.foldl_cons, List.mem_cons, forall_eq_or_imp]
    refine ⟨by omega, ⟨by omega, h₂⟩, ?_⟩
    rcases h₃ with h | h
    · rw [h]; rcases Int.le_total x y with hxy | hxy
      · exact .inl (by omega)
      · exact .inr (.inl (by omega))
    · exact .inr (.inr h)

/-- The maximum of a non-empty list is one of its elements and is at least every one. -/
theorem maxOf_spec (l : List Int) (h : l ≠ []) : maxOf l ∈ l ∧ ∀ y ∈ l, y ≤ maxOf l := by
  match l, h with
  | x :: l, _ =>
    obtain ⟨h₁, h₂, h₃⟩ := foldl_max_spec l x
    exact ⟨by simpa [maxOf] using h₃, by simpa [maxOf] using ⟨h₁, h₂⟩⟩

/-- The minimum of a non-empty list is one of its elements and is at most every one. -/
theorem minOf_spec (l : List Int) (h : l ≠ []) : minOf l ∈ l ∧ ∀ y ∈ l, minOf l ≤ y := by
  match l, h with
  | x :: l, _ =>
    obtain ⟨h₁, h₂, h₃⟩ := foldl_min_spec l x
    exact ⟨by simpa [minOf] using h₃, by simpa [minOf] using ⟨h₁, h₂⟩⟩

/-- The amplitude of a list within an interval is at most the interval's length. -/
theorem ptp_le (l : List Int) (a b : Int) (hab : a ≤ b) (h : ∀ x ∈ l, a ≤ x ∧ x ≤ b) : (ptp l : Int) ≤ b - a := by
  by_cases hl : l = []
  · subst hl; simp [ptp, maxOf, minOf]; omega
  · have h₁ := h _ (maxOf_spec l hl).1
    have h₂ := h _ (minOf_spec l hl).1
    simp only [ptp]; omega

/-- The amplitude of a block is a 16-bit value (R152). -/
theorem blockPower_le (P : Params) (s : State) : blockPower P s ≤ 65535 := by
  have := ptp_le (rawBlock P s) (-32768) 32767 (by omega) (rawBlock_range P s)
  simp only [blockPower]; omega

/-- The floor of the mean of a non-empty list lies between any bounds of its elements (R152, R163). -/
theorem sum_bounds (l : List Int) (a b : Int) (h : ∀ x ∈ l, a ≤ x ∧ x ≤ b) :
    a * l.length ≤ l.sum ∧ l.sum ≤ b * l.length := by
  induction l with
  | nil => simp
  | cons x l ih =>
    have h₁ := h x (by simp)
    have h₂ := ih fun y hy => h y (by simp [hy])
    simp only [List.sum_cons, List.length_cons, Int.natCast_add, Int.mul_add]
    constructor <;> push_cast <;> omega

theorem floorMean_bounds (l : List Int) (a b : Int) (hl : l ≠ []) (h : ∀ x ∈ l, a ≤ x ∧ x ≤ b) :
    a ≤ l.sum / (l.length : Int) ∧ l.sum / (l.length : Int) ≤ b := by
  have hpos : (0 : Int) < l.length := by have := List.length_pos_iff.mpr hl; omega
  have := sum_bounds l a b h
  exact ⟨(Int.le_ediv_iff_mul_le hpos).mpr this.1,
    Int.ediv_le_of_le_mul hpos this.2⟩

end Sys2Proof.Machine
end

