-- ==== Sys2Proof/Laws/State.lean ====
section
/-! SUPPORT. One lemma per field per shared update of the state, so that no proof unfolds a record update. -/

namespace Sys2Proof.Machine

variable (s : State)

/-! ### `State.raise` -/

@[simp] theorem State.raise_phase (c : ResultCode) : (s.raise c).phase = .idle := rfl
@[simp] theorem State.raise_done (c : ResultCode) : (s.raise c).done = true := rfl
@[simp] theorem State.raise_cancelReq (c : ResultCode) : (s.raise c).cancelReq = false := rfl
@[simp] theorem State.raise_waitBlk (c : ResultCode) : (s.raise c).waitBlk = false := rfl
@[simp] theorem State.raise_resultCode (c : ResultCode) : (s.raise c).resultCode = c := rfl
@[simp] theorem State.raise_resultLen (c : ResultCode) : (s.raise c).resultLen = if c = .ok then s.outLen else 0 := rfl
@[simp] theorem State.raise_pwin (c : ResultCode) : (s.raise c).pwin = s.pwin := rfl
@[simp] theorem State.raise_primeCnt (c : ResultCode) : (s.raise c).primeCnt = s.primeCnt := rfl
@[simp] theorem State.raise_bias (c : ResultCode) : (s.raise c).bias = s.bias := rfl
@[simp] theorem State.raise_actCnt (c : ResultCode) : (s.raise c).actCnt = s.actCnt := rfl
@[simp] theorem State.raise_detJ (c : ResultCode) : (s.raise c).detJ = s.detJ := rfl
@[simp] theorem State.raise_sign (c : ResultCode) : (s.raise c).sign = s.sign := rfl
@[simp] theorem State.raise_thr (c : ResultCode) : (s.raise c).thr = s.thr := rfl
@[simp] theorem State.raise_peak (c : ResultCode) : (s.raise c).peak = s.peak := rfl
@[simp] theorem State.raise_peakIdx (c : ResultCode) : (s.raise c).peakIdx = s.peakIdx := rfl
@[simp] theorem State.raise_prevIdx (c : ResultCode) : (s.raise c).prevIdx = s.prevIdx := rfl
@[simp] theorem State.raise_havePrev (c : ResultCode) : (s.raise c).havePrev = s.havePrev := rfl
@[simp] theorem State.raise_cwin (c : ResultCode) : (s.raise c).cwin = s.cwin := rfl
@[simp] theorem State.raise_recI (c : ResultCode) : (s.raise c).recI = s.recI := rfl
@[simp] theorem State.raise_frK (c : ResultCode) : (s.raise c).frK = s.frK := rfl
@[simp] theorem State.raise_dir (c : ResultCode) : (s.raise c).dir = s.dir := rfl
@[simp] theorem State.raise_decJ (c : ResultCode) : (s.raise c).decJ = s.decJ := rfl
@[simp] theorem State.raise_acc (c : ResultCode) : (s.raise c).acc = s.acc := rfl
@[simp] theorem State.raise_waveLen (c : ResultCode) : (s.raise c).waveLen = s.waveLen := rfl
@[simp] theorem State.raise_ivlCnt (c : ResultCode) : (s.raise c).ivlCnt = s.ivlCnt := rfl
@[simp] theorem State.raise_bitCnt (c : ResultCode) : (s.raise c).bitCnt = s.bitCnt := rfl
@[simp] theorem State.raise_symCnt (c : ResultCode) : (s.raise c).symCnt = s.symCnt := rfl
@[simp] theorem State.raise_outLen (c : ResultCode) : (s.raise c).outLen = s.outLen := rfl
@[simp] theorem State.raise_blk (c : ResultCode) : (s.raise c).blk = s.blk := rfl
@[simp] theorem State.raise_idleBuf (c : ResultCode) : (s.raise c).idleBuf = s.idleBuf := rfl
@[simp] theorem State.raise_actBuf (c : ResultCode) : (s.raise c).actBuf = s.actBuf := rfl
@[simp] theorem State.raise_wave (c : ResultCode) : (s.raise c).wave = s.wave := rfl
@[simp] theorem State.raise_ivl (c : ResultCode) : (s.raise c).ivl = s.ivl := rfl
@[simp] theorem State.raise_bits (c : ResultCode) : (s.raise c).bits = s.bits := rfl
@[simp] theorem State.raise_syms (c : ResultCode) : (s.raise c).syms = s.syms := rfl
@[simp] theorem State.raise_out (c : ResultCode) : (s.raise c).out = s.out := rfl
@[simp] theorem State.raise_blkHere (c : ResultCode) : (s.raise c).blkHere = false := rfl
@[simp] theorem State.raise_entered (c : ResultCode) : (s.raise c).entered = false := rfl
@[simp] theorem State.raise_inputs (c : ResultCode) : (s.raise c).inputs = s.inputs := rfl
@[simp] theorem State.raise_hostSaw (c : ResultCode) : (s.raise c).hostSaw = s.hostSaw := rfl
@[simp] theorem State.raise_freeCnt (c : ResultCode) : (s.raise c).freeCnt = s.freeCnt := rfl

/-! ### `State.handOff` -/

@[simp] theorem State.handOff_phase (p : Phase) : (s.handOff p).phase = p := rfl
@[simp] theorem State.handOff_done (p : Phase) : (s.handOff p).done = s.done := rfl
@[simp] theorem State.handOff_cancelReq (p : Phase) : (s.handOff p).cancelReq = s.cancelReq := rfl
@[simp] theorem State.handOff_waitBlk (p : Phase) : (s.handOff p).waitBlk = s.waitBlk := rfl
@[simp] theorem State.handOff_resultCode (p : Phase) : (s.handOff p).resultCode = s.resultCode := rfl
@[simp] theorem State.handOff_resultLen (p : Phase) : (s.handOff p).resultLen = s.resultLen := rfl
@[simp] theorem State.handOff_pwin (p : Phase) : (s.handOff p).pwin = s.pwin := rfl
@[simp] theorem State.handOff_primeCnt (p : Phase) : (s.handOff p).primeCnt = s.primeCnt := rfl
@[simp] theorem State.handOff_bias (p : Phase) : (s.handOff p).bias = s.bias := rfl
@[simp] theorem State.handOff_actCnt (p : Phase) : (s.handOff p).actCnt = s.actCnt := rfl
@[simp] theorem State.handOff_detJ (p : Phase) : (s.handOff p).detJ = s.detJ := rfl
@[simp] theorem State.handOff_sign (p : Phase) : (s.handOff p).sign = s.sign := rfl
@[simp] theorem State.handOff_thr (p : Phase) : (s.handOff p).thr = s.thr := rfl
@[simp] theorem State.handOff_peak (p : Phase) : (s.handOff p).peak = s.peak := rfl
@[simp] theorem State.handOff_peakIdx (p : Phase) : (s.handOff p).peakIdx = s.peakIdx := rfl
@[simp] theorem State.handOff_prevIdx (p : Phase) : (s.handOff p).prevIdx = s.prevIdx := rfl
@[simp] theorem State.handOff_havePrev (p : Phase) : (s.handOff p).havePrev = s.havePrev := rfl
@[simp] theorem State.handOff_cwin (p : Phase) : (s.handOff p).cwin = s.cwin := rfl
@[simp] theorem State.handOff_recI (p : Phase) : (s.handOff p).recI = s.recI := rfl
@[simp] theorem State.handOff_frK (p : Phase) : (s.handOff p).frK = s.frK := rfl
@[simp] theorem State.handOff_dir (p : Phase) : (s.handOff p).dir = s.dir := rfl
@[simp] theorem State.handOff_decJ (p : Phase) : (s.handOff p).decJ = s.decJ := rfl
@[simp] theorem State.handOff_acc (p : Phase) : (s.handOff p).acc = s.acc := rfl
@[simp] theorem State.handOff_waveLen (p : Phase) : (s.handOff p).waveLen = s.waveLen := rfl
@[simp] theorem State.handOff_ivlCnt (p : Phase) : (s.handOff p).ivlCnt = s.ivlCnt := rfl
@[simp] theorem State.handOff_bitCnt (p : Phase) : (s.handOff p).bitCnt = s.bitCnt := rfl
@[simp] theorem State.handOff_symCnt (p : Phase) : (s.handOff p).symCnt = s.symCnt := rfl
@[simp] theorem State.handOff_outLen (p : Phase) : (s.handOff p).outLen = s.outLen := rfl
@[simp] theorem State.handOff_blk (p : Phase) : (s.handOff p).blk = s.blk := rfl
@[simp] theorem State.handOff_idleBuf (p : Phase) : (s.handOff p).idleBuf = s.idleBuf := rfl
@[simp] theorem State.handOff_actBuf (p : Phase) : (s.handOff p).actBuf = s.actBuf := rfl
@[simp] theorem State.handOff_wave (p : Phase) : (s.handOff p).wave = s.wave := rfl
@[simp] theorem State.handOff_ivl (p : Phase) : (s.handOff p).ivl = s.ivl := rfl
@[simp] theorem State.handOff_bits (p : Phase) : (s.handOff p).bits = s.bits := rfl
@[simp] theorem State.handOff_syms (p : Phase) : (s.handOff p).syms = s.syms := rfl
@[simp] theorem State.handOff_out (p : Phase) : (s.handOff p).out = s.out := rfl
@[simp] theorem State.handOff_blkHere (p : Phase) : (s.handOff p).blkHere = s.blkHere := rfl
@[simp] theorem State.handOff_entered (p : Phase) : (s.handOff p).entered = false := rfl
@[simp] theorem State.handOff_inputs (p : Phase) : (s.handOff p).inputs = s.inputs := rfl
@[simp] theorem State.handOff_hostSaw (p : Phase) : (s.handOff p).hostSaw = s.hostSaw := rfl
@[simp] theorem State.handOff_freeCnt (p : Phase) : (s.handOff p).freeCnt = s.freeCnt := rfl

/-! ### `State.startInvocation` -/

@[simp] theorem State.startInvocation_phase : (s.startInvocation).phase = .prime := rfl
@[simp] theorem State.startInvocation_done : (s.startInvocation).done = false := rfl
@[simp] theorem State.startInvocation_cancelReq : (s.startInvocation).cancelReq = false := rfl
@[simp] theorem State.startInvocation_waitBlk : (s.startInvocation).waitBlk = false := rfl
@[simp] theorem State.startInvocation_resultCode : (s.startInvocation).resultCode = .ok := rfl
@[simp] theorem State.startInvocation_resultLen : (s.startInvocation).resultLen = 0 := rfl
@[simp] theorem State.startInvocation_pwin : (s.startInvocation).pwin = s.pwin := rfl
@[simp] theorem State.startInvocation_primeCnt : (s.startInvocation).primeCnt = 0 := rfl
@[simp] theorem State.startInvocation_bias : (s.startInvocation).bias = 0 := rfl
@[simp] theorem State.startInvocation_actCnt : (s.startInvocation).actCnt = 0 := rfl
@[simp] theorem State.startInvocation_detJ : (s.startInvocation).detJ = s.detJ := rfl
@[simp] theorem State.startInvocation_sign : (s.startInvocation).sign = s.sign := rfl
@[simp] theorem State.startInvocation_thr : (s.startInvocation).thr = s.thr := rfl
@[simp] theorem State.startInvocation_peak : (s.startInvocation).peak = s.peak := rfl
@[simp] theorem State.startInvocation_peakIdx : (s.startInvocation).peakIdx = s.peakIdx := rfl
@[simp] theorem State.startInvocation_prevIdx : (s.startInvocation).prevIdx = s.prevIdx := rfl
@[simp] theorem State.startInvocation_havePrev : (s.startInvocation).havePrev = s.havePrev := rfl
@[simp] theorem State.startInvocation_cwin : (s.startInvocation).cwin = s.cwin := rfl
@[simp] theorem State.startInvocation_recI : (s.startInvocation).recI = s.recI := rfl
@[simp] theorem State.startInvocation_frK : (s.startInvocation).frK = s.frK := rfl
@[simp] theorem State.startInvocation_dir : (s.startInvocation).dir = s.dir := rfl
@[simp] theorem State.startInvocation_decJ : (s.startInvocation).decJ = s.decJ := rfl
@[simp] theorem State.startInvocation_acc : (s.startInvocation).acc = s.acc := rfl
@[simp] theorem State.startInvocation_waveLen : (s.startInvocation).waveLen = 0 := rfl
@[simp] theorem State.startInvocation_ivlCnt : (s.startInvocation).ivlCnt = 0 := rfl
@[simp] theorem State.startInvocation_bitCnt : (s.startInvocation).bitCnt = 0 := rfl
@[simp] theorem State.startInvocation_symCnt : (s.startInvocation).symCnt = 0 := rfl
@[simp] theorem State.startInvocation_outLen : (s.startInvocation).outLen = 0 := rfl
@[simp] theorem State.startInvocation_blk : (s.startInvocation).blk = s.blk := rfl
@[simp] theorem State.startInvocation_idleBuf : (s.startInvocation).idleBuf = s.idleBuf := rfl
@[simp] theorem State.startInvocation_actBuf : (s.startInvocation).actBuf = s.actBuf := rfl
@[simp] theorem State.startInvocation_wave : (s.startInvocation).wave = s.wave := rfl
@[simp] theorem State.startInvocation_ivl : (s.startInvocation).ivl = s.ivl := rfl
@[simp] theorem State.startInvocation_bits : (s.startInvocation).bits = s.bits := rfl
@[simp] theorem State.startInvocation_syms : (s.startInvocation).syms = s.syms := rfl
@[simp] theorem State.startInvocation_out : (s.startInvocation).out = s.out := rfl
@[simp] theorem State.startInvocation_blkHere : (s.startInvocation).blkHere = false := rfl
@[simp] theorem State.startInvocation_entered : (s.startInvocation).entered = false := rfl
@[simp] theorem State.startInvocation_inputs : (s.startInvocation).inputs = s.inputs := rfl
@[simp] theorem State.startInvocation_hostSaw : (s.startInvocation).hostSaw = s.hostSaw := rfl
@[simp] theorem State.startInvocation_freeCnt : (s.startInvocation).freeCnt = s.freeCnt := rfl

/-! ### `State.requestBlock` -/

@[simp] theorem State.requestBlock_phase : (s.requestBlock).phase = s.phase := rfl
@[simp] theorem State.requestBlock_done : (s.requestBlock).done = s.done := rfl
@[simp] theorem State.requestBlock_cancelReq : (s.requestBlock).cancelReq = s.cancelReq := rfl
@[simp] theorem State.requestBlock_waitBlk : (s.requestBlock).waitBlk = true := rfl
@[simp] theorem State.requestBlock_resultCode : (s.requestBlock).resultCode = s.resultCode := rfl
@[simp] theorem State.requestBlock_resultLen : (s.requestBlock).resultLen = s.resultLen := rfl
@[simp] theorem State.requestBlock_pwin : (s.requestBlock).pwin = s.pwin := rfl
@[simp] theorem State.requestBlock_primeCnt : (s.requestBlock).primeCnt = s.primeCnt := rfl
@[simp] theorem State.requestBlock_bias : (s.requestBlock).bias = s.bias := rfl
@[simp] theorem State.requestBlock_actCnt : (s.requestBlock).actCnt = s.actCnt := rfl
@[simp] theorem State.requestBlock_detJ : (s.requestBlock).detJ = s.detJ := rfl
@[simp] theorem State.requestBlock_sign : (s.requestBlock).sign = s.sign := rfl
@[simp] theorem State.requestBlock_thr : (s.requestBlock).thr = s.thr := rfl
@[simp] theorem State.requestBlock_peak : (s.requestBlock).peak = s.peak := rfl
@[simp] theorem State.requestBlock_peakIdx : (s.requestBlock).peakIdx = s.peakIdx := rfl
@[simp] theorem State.requestBlock_prevIdx : (s.requestBlock).prevIdx = s.prevIdx := rfl
@[simp] theorem State.requestBlock_havePrev : (s.requestBlock).havePrev = s.havePrev := rfl
@[simp] theorem State.requestBlock_cwin : (s.requestBlock).cwin = s.cwin := rfl
@[simp] theorem State.requestBlock_recI : (s.requestBlock).recI = s.recI := rfl
@[simp] theorem State.requestBlock_frK : (s.requestBlock).frK = s.frK := rfl
@[simp] theorem State.requestBlock_dir : (s.requestBlock).dir = s.dir := rfl
@[simp] theorem State.requestBlock_decJ : (s.requestBlock).decJ = s.decJ := rfl
@[simp] theorem State.requestBlock_acc : (s.requestBlock).acc = s.acc := rfl
@[simp] theorem State.requestBlock_waveLen : (s.requestBlock).waveLen = s.waveLen := rfl
@[simp] theorem State.requestBlock_ivlCnt : (s.requestBlock).ivlCnt = s.ivlCnt := rfl
@[simp] theorem State.requestBlock_bitCnt : (s.requestBlock).bitCnt = s.bitCnt := rfl
@[simp] theorem State.requestBlock_symCnt : (s.requestBlock).symCnt = s.symCnt := rfl
@[simp] theorem State.requestBlock_outLen : (s.requestBlock).outLen = s.outLen := rfl
@[simp] theorem State.requestBlock_blk : (s.requestBlock).blk = s.blk := rfl
@[simp] theorem State.requestBlock_idleBuf : (s.requestBlock).idleBuf = s.idleBuf := rfl
@[simp] theorem State.requestBlock_actBuf : (s.requestBlock).actBuf = s.actBuf := rfl
@[simp] theorem State.requestBlock_wave : (s.requestBlock).wave = s.wave := rfl
@[simp] theorem State.requestBlock_ivl : (s.requestBlock).ivl = s.ivl := rfl
@[simp] theorem State.requestBlock_bits : (s.requestBlock).bits = s.bits := rfl
@[simp] theorem State.requestBlock_syms : (s.requestBlock).syms = s.syms := rfl
@[simp] theorem State.requestBlock_out : (s.requestBlock).out = s.out := rfl
@[simp] theorem State.requestBlock_blkHere : (s.requestBlock).blkHere = s.blkHere := rfl
@[simp] theorem State.requestBlock_entered : (s.requestBlock).entered = s.entered := rfl
@[simp] theorem State.requestBlock_inputs : (s.requestBlock).inputs = s.inputs := rfl
@[simp] theorem State.requestBlock_hostSaw : (s.requestBlock).hostSaw = s.hostSaw := rfl
@[simp] theorem State.requestBlock_freeCnt : (s.requestBlock).freeCnt = s.freeCnt := rfl

/-! ### `State.takeBlock` -/

@[simp] theorem State.takeBlock_phase (l : List RawSample) : (s.takeBlock l).phase = s.phase := rfl
@[simp] theorem State.takeBlock_done (l : List RawSample) : (s.takeBlock l).done = s.done := rfl
@[simp] theorem State.takeBlock_cancelReq (l : List RawSample) : (s.takeBlock l).cancelReq = s.cancelReq := rfl
@[simp] theorem State.takeBlock_waitBlk (l : List RawSample) : (s.takeBlock l).waitBlk = false := rfl
@[simp] theorem State.takeBlock_resultCode (l : List RawSample) : (s.takeBlock l).resultCode = s.resultCode := rfl
@[simp] theorem State.takeBlock_resultLen (l : List RawSample) : (s.takeBlock l).resultLen = s.resultLen := rfl
@[simp] theorem State.takeBlock_pwin (l : List RawSample) : (s.takeBlock l).pwin = s.pwin := rfl
@[simp] theorem State.takeBlock_primeCnt (l : List RawSample) : (s.takeBlock l).primeCnt = s.primeCnt := rfl
@[simp] theorem State.takeBlock_bias (l : List RawSample) : (s.takeBlock l).bias = s.bias := rfl
@[simp] theorem State.takeBlock_actCnt (l : List RawSample) : (s.takeBlock l).actCnt = s.actCnt := rfl
@[simp] theorem State.takeBlock_detJ (l : List RawSample) : (s.takeBlock l).detJ = s.detJ := rfl
@[simp] theorem State.takeBlock_sign (l : List RawSample) : (s.takeBlock l).sign = s.sign := rfl
@[simp] theorem State.takeBlock_thr (l : List RawSample) : (s.takeBlock l).thr = s.thr := rfl
@[simp] theorem State.takeBlock_peak (l : List RawSample) : (s.takeBlock l).peak = s.peak := rfl
@[simp] theorem State.takeBlock_peakIdx (l : List RawSample) : (s.takeBlock l).peakIdx = s.peakIdx := rfl
@[simp] theorem State.takeBlock_prevIdx (l : List RawSample) : (s.takeBlock l).prevIdx = s.prevIdx := rfl
@[simp] theorem State.takeBlock_havePrev (l : List RawSample) : (s.takeBlock l).havePrev = s.havePrev := rfl
@[simp] theorem State.takeBlock_cwin (l : List RawSample) : (s.takeBlock l).cwin = s.cwin := rfl
@[simp] theorem State.takeBlock_recI (l : List RawSample) : (s.takeBlock l).recI = s.recI := rfl
@[simp] theorem State.takeBlock_frK (l : List RawSample) : (s.takeBlock l).frK = s.frK := rfl
@[simp] theorem State.takeBlock_dir (l : List RawSample) : (s.takeBlock l).dir = s.dir := rfl
@[simp] theorem State.takeBlock_decJ (l : List RawSample) : (s.takeBlock l).decJ = s.decJ := rfl
@[simp] theorem State.takeBlock_acc (l : List RawSample) : (s.takeBlock l).acc = s.acc := rfl
@[simp] theorem State.takeBlock_waveLen (l : List RawSample) : (s.takeBlock l).waveLen = s.waveLen := rfl
@[simp] theorem State.takeBlock_ivlCnt (l : List RawSample) : (s.takeBlock l).ivlCnt = s.ivlCnt := rfl
@[simp] theorem State.takeBlock_bitCnt (l : List RawSample) : (s.takeBlock l).bitCnt = s.bitCnt := rfl
@[simp] theorem State.takeBlock_symCnt (l : List RawSample) : (s.takeBlock l).symCnt = s.symCnt := rfl
@[simp] theorem State.takeBlock_outLen (l : List RawSample) : (s.takeBlock l).outLen = s.outLen := rfl
@[simp] theorem State.takeBlock_blk (l : List RawSample) : (s.takeBlock l).blk = Buffer.writeList s.blk 0 l := rfl
@[simp] theorem State.takeBlock_idleBuf (l : List RawSample) : (s.takeBlock l).idleBuf = s.idleBuf := rfl
@[simp] theorem State.takeBlock_actBuf (l : List RawSample) : (s.takeBlock l).actBuf = s.actBuf := rfl
@[simp] theorem State.takeBlock_wave (l : List RawSample) : (s.takeBlock l).wave = s.wave := rfl
@[simp] theorem State.takeBlock_ivl (l : List RawSample) : (s.takeBlock l).ivl = s.ivl := rfl
@[simp] theorem State.takeBlock_bits (l : List RawSample) : (s.takeBlock l).bits = s.bits := rfl
@[simp] theorem State.takeBlock_syms (l : List RawSample) : (s.takeBlock l).syms = s.syms := rfl
@[simp] theorem State.takeBlock_out (l : List RawSample) : (s.takeBlock l).out = s.out := rfl
@[simp] theorem State.takeBlock_blkHere (l : List RawSample) : (s.takeBlock l).blkHere = true := rfl
@[simp] theorem State.takeBlock_entered (l : List RawSample) : (s.takeBlock l).entered = s.entered := rfl
@[simp] theorem State.takeBlock_inputs (l : List RawSample) : (s.takeBlock l).inputs = s.inputs := rfl
@[simp] theorem State.takeBlock_hostSaw (l : List RawSample) : (s.takeBlock l).hostSaw = s.hostSaw := rfl
@[simp] theorem State.takeBlock_freeCnt (l : List RawSample) : (s.takeBlock l).freeCnt = s.freeCnt := rfl

/-! ### `State.consumeBlock` -/

@[simp] theorem State.consumeBlock_phase (P : Params) : (s.consumeBlock P).phase = s.phase := rfl
@[simp] theorem State.consumeBlock_done (P : Params) : (s.consumeBlock P).done = s.done := rfl
@[simp] theorem State.consumeBlock_cancelReq (P : Params) : (s.consumeBlock P).cancelReq = s.cancelReq := rfl
@[simp] theorem State.consumeBlock_waitBlk (P : Params) : (s.consumeBlock P).waitBlk = s.waitBlk := rfl
@[simp] theorem State.consumeBlock_resultCode (P : Params) : (s.consumeBlock P).resultCode = s.resultCode := rfl
@[simp] theorem State.consumeBlock_resultLen (P : Params) : (s.consumeBlock P).resultLen = s.resultLen := rfl
@[simp] theorem State.consumeBlock_pwin (P : Params) : (s.consumeBlock P).pwin = s.pwin := rfl
@[simp] theorem State.consumeBlock_primeCnt (P : Params) : (s.consumeBlock P).primeCnt = s.primeCnt := rfl
@[simp] theorem State.consumeBlock_bias (P : Params) : (s.consumeBlock P).bias = nextBias P s := rfl
@[simp] theorem State.consumeBlock_actCnt (P : Params) : (s.consumeBlock P).actCnt = s.actCnt := rfl
@[simp] theorem State.consumeBlock_detJ (P : Params) : (s.consumeBlock P).detJ = s.detJ := rfl
@[simp] theorem State.consumeBlock_sign (P : Params) : (s.consumeBlock P).sign = s.sign := rfl
@[simp] theorem State.consumeBlock_thr (P : Params) : (s.consumeBlock P).thr = s.thr := rfl
@[simp] theorem State.consumeBlock_peak (P : Params) : (s.consumeBlock P).peak = s.peak := rfl
@[simp] theorem State.consumeBlock_peakIdx (P : Params) : (s.consumeBlock P).peakIdx = s.peakIdx := rfl
@[simp] theorem State.consumeBlock_prevIdx (P : Params) : (s.consumeBlock P).prevIdx = s.prevIdx := rfl
@[simp] theorem State.consumeBlock_havePrev (P : Params) : (s.consumeBlock P).havePrev = s.havePrev := rfl
@[simp] theorem State.consumeBlock_cwin (P : Params) : (s.consumeBlock P).cwin = s.cwin := rfl
@[simp] theorem State.consumeBlock_recI (P : Params) : (s.consumeBlock P).recI = s.recI := rfl
@[simp] theorem State.consumeBlock_frK (P : Params) : (s.consumeBlock P).frK = s.frK := rfl
@[simp] theorem State.consumeBlock_dir (P : Params) : (s.consumeBlock P).dir = s.dir := rfl
@[simp] theorem State.consumeBlock_decJ (P : Params) : (s.consumeBlock P).decJ = s.decJ := rfl
@[simp] theorem State.consumeBlock_acc (P : Params) : (s.consumeBlock P).acc = s.acc := rfl
@[simp] theorem State.consumeBlock_waveLen (P : Params) : (s.consumeBlock P).waveLen = s.waveLen := rfl
@[simp] theorem State.consumeBlock_ivlCnt (P : Params) : (s.consumeBlock P).ivlCnt = s.ivlCnt := rfl
@[simp] theorem State.consumeBlock_bitCnt (P : Params) : (s.consumeBlock P).bitCnt = s.bitCnt := rfl
@[simp] theorem State.consumeBlock_symCnt (P : Params) : (s.consumeBlock P).symCnt = s.symCnt := rfl
@[simp] theorem State.consumeBlock_outLen (P : Params) : (s.consumeBlock P).outLen = s.outLen := rfl
@[simp] theorem State.consumeBlock_blk (P : Params) : (s.consumeBlock P).blk = s.blk := rfl
@[simp] theorem State.consumeBlock_idleBuf (P : Params) : (s.consumeBlock P).idleBuf = s.idleBuf := rfl
@[simp] theorem State.consumeBlock_actBuf (P : Params) : (s.consumeBlock P).actBuf = s.actBuf := rfl
@[simp] theorem State.consumeBlock_wave (P : Params) : (s.consumeBlock P).wave = s.wave := rfl
@[simp] theorem State.consumeBlock_ivl (P : Params) : (s.consumeBlock P).ivl = s.ivl := rfl
@[simp] theorem State.consumeBlock_bits (P : Params) : (s.consumeBlock P).bits = s.bits := rfl
@[simp] theorem State.consumeBlock_syms (P : Params) : (s.consumeBlock P).syms = s.syms := rfl
@[simp] theorem State.consumeBlock_out (P : Params) : (s.consumeBlock P).out = s.out := rfl
@[simp] theorem State.consumeBlock_blkHere (P : Params) : (s.consumeBlock P).blkHere = false := rfl
@[simp] theorem State.consumeBlock_entered (P : Params) : (s.consumeBlock P).entered = s.entered := rfl
@[simp] theorem State.consumeBlock_inputs (P : Params) : (s.consumeBlock P).inputs = s.inputs := rfl
@[simp] theorem State.consumeBlock_hostSaw (P : Params) : (s.consumeBlock P).hostSaw = s.hostSaw := rfl
@[simp] theorem State.consumeBlock_freeCnt (P : Params) : (s.consumeBlock P).freeCnt = s.freeCnt := rfl

/-! ### `State.appendIvl` -/

@[simp] theorem State.appendIvl_phase (x : Nat) : (s.appendIvl x).phase = s.phase := rfl
@[simp] theorem State.appendIvl_done (x : Nat) : (s.appendIvl x).done = s.done := rfl
@[simp] theorem State.appendIvl_cancelReq (x : Nat) : (s.appendIvl x).cancelReq = s.cancelReq := rfl
@[simp] theorem State.appendIvl_waitBlk (x : Nat) : (s.appendIvl x).waitBlk = s.waitBlk := rfl
@[simp] theorem State.appendIvl_resultCode (x : Nat) : (s.appendIvl x).resultCode = s.resultCode := rfl
@[simp] theorem State.appendIvl_resultLen (x : Nat) : (s.appendIvl x).resultLen = s.resultLen := rfl
@[simp] theorem State.appendIvl_pwin (x : Nat) : (s.appendIvl x).pwin = s.pwin := rfl
@[simp] theorem State.appendIvl_primeCnt (x : Nat) : (s.appendIvl x).primeCnt = s.primeCnt := rfl
@[simp] theorem State.appendIvl_bias (x : Nat) : (s.appendIvl x).bias = s.bias := rfl
@[simp] theorem State.appendIvl_actCnt (x : Nat) : (s.appendIvl x).actCnt = s.actCnt := rfl
@[simp] theorem State.appendIvl_detJ (x : Nat) : (s.appendIvl x).detJ = s.detJ := rfl
@[simp] theorem State.appendIvl_sign (x : Nat) : (s.appendIvl x).sign = s.sign := rfl
@[simp] theorem State.appendIvl_thr (x : Nat) : (s.appendIvl x).thr = s.thr := rfl
@[simp] theorem State.appendIvl_peak (x : Nat) : (s.appendIvl x).peak = s.peak := rfl
@[simp] theorem State.appendIvl_peakIdx (x : Nat) : (s.appendIvl x).peakIdx = s.peakIdx := rfl
@[simp] theorem State.appendIvl_prevIdx (x : Nat) : (s.appendIvl x).prevIdx = s.prevIdx := rfl
@[simp] theorem State.appendIvl_havePrev (x : Nat) : (s.appendIvl x).havePrev = s.havePrev := rfl
@[simp] theorem State.appendIvl_cwin (x : Nat) : (s.appendIvl x).cwin = s.cwin := rfl
@[simp] theorem State.appendIvl_recI (x : Nat) : (s.appendIvl x).recI = s.recI := rfl
@[simp] theorem State.appendIvl_frK (x : Nat) : (s.appendIvl x).frK = s.frK := rfl
@[simp] theorem State.appendIvl_dir (x : Nat) : (s.appendIvl x).dir = s.dir := rfl
@[simp] theorem State.appendIvl_decJ (x : Nat) : (s.appendIvl x).decJ = s.decJ := rfl
@[simp] theorem State.appendIvl_acc (x : Nat) : (s.appendIvl x).acc = s.acc := rfl
@[simp] theorem State.appendIvl_waveLen (x : Nat) : (s.appendIvl x).waveLen = s.waveLen := rfl
@[simp] theorem State.appendIvl_ivlCnt (x : Nat) : (s.appendIvl x).ivlCnt = s.ivlCnt + 1 := rfl
@[simp] theorem State.appendIvl_bitCnt (x : Nat) : (s.appendIvl x).bitCnt = s.bitCnt := rfl
@[simp] theorem State.appendIvl_symCnt (x : Nat) : (s.appendIvl x).symCnt = s.symCnt := rfl
@[simp] theorem State.appendIvl_outLen (x : Nat) : (s.appendIvl x).outLen = s.outLen := rfl
@[simp] theorem State.appendIvl_blk (x : Nat) : (s.appendIvl x).blk = s.blk := rfl
@[simp] theorem State.appendIvl_idleBuf (x : Nat) : (s.appendIvl x).idleBuf = s.idleBuf := rfl
@[simp] theorem State.appendIvl_actBuf (x : Nat) : (s.appendIvl x).actBuf = s.actBuf := rfl
@[simp] theorem State.appendIvl_wave (x : Nat) : (s.appendIvl x).wave = s.wave := rfl
@[simp] theorem State.appendIvl_ivl (x : Nat) : (s.appendIvl x).ivl = Buffer.write s.ivl s.ivlCnt x := rfl
@[simp] theorem State.appendIvl_bits (x : Nat) : (s.appendIvl x).bits = s.bits := rfl
@[simp] theorem State.appendIvl_syms (x : Nat) : (s.appendIvl x).syms = s.syms := rfl
@[simp] theorem State.appendIvl_out (x : Nat) : (s.appendIvl x).out = s.out := rfl
@[simp] theorem State.appendIvl_blkHere (x : Nat) : (s.appendIvl x).blkHere = s.blkHere := rfl
@[simp] theorem State.appendIvl_entered (x : Nat) : (s.appendIvl x).entered = s.entered := rfl
@[simp] theorem State.appendIvl_inputs (x : Nat) : (s.appendIvl x).inputs = s.inputs := rfl
@[simp] theorem State.appendIvl_hostSaw (x : Nat) : (s.appendIvl x).hostSaw = s.hostSaw := rfl
@[simp] theorem State.appendIvl_freeCnt (x : Nat) : (s.appendIvl x).freeCnt = s.freeCnt := rfl

/-! ### `State.appendBit` -/

@[simp] theorem State.appendBit_phase (b : Bool) : (s.appendBit b).phase = s.phase := rfl
@[simp] theorem State.appendBit_done (b : Bool) : (s.appendBit b).done = s.done := rfl
@[simp] theorem State.appendBit_cancelReq (b : Bool) : (s.appendBit b).cancelReq = s.cancelReq := rfl
@[simp] theorem State.appendBit_waitBlk (b : Bool) : (s.appendBit b).waitBlk = s.waitBlk := rfl
@[simp] theorem State.appendBit_resultCode (b : Bool) : (s.appendBit b).resultCode = s.resultCode := rfl
@[simp] theorem State.appendBit_resultLen (b : Bool) : (s.appendBit b).resultLen = s.resultLen := rfl
@[simp] theorem State.appendBit_pwin (b : Bool) : (s.appendBit b).pwin = s.pwin := rfl
@[simp] theorem State.appendBit_primeCnt (b : Bool) : (s.appendBit b).primeCnt = s.primeCnt := rfl
@[simp] theorem State.appendBit_bias (b : Bool) : (s.appendBit b).bias = s.bias := rfl
@[simp] theorem State.appendBit_actCnt (b : Bool) : (s.appendBit b).actCnt = s.actCnt := rfl
@[simp] theorem State.appendBit_detJ (b : Bool) : (s.appendBit b).detJ = s.detJ := rfl
@[simp] theorem State.appendBit_sign (b : Bool) : (s.appendBit b).sign = s.sign := rfl
@[simp] theorem State.appendBit_thr (b : Bool) : (s.appendBit b).thr = s.thr := rfl
@[simp] theorem State.appendBit_peak (b : Bool) : (s.appendBit b).peak = s.peak := rfl
@[simp] theorem State.appendBit_peakIdx (b : Bool) : (s.appendBit b).peakIdx = s.peakIdx := rfl
@[simp] theorem State.appendBit_prevIdx (b : Bool) : (s.appendBit b).prevIdx = s.prevIdx := rfl
@[simp] theorem State.appendBit_havePrev (b : Bool) : (s.appendBit b).havePrev = s.havePrev := rfl
@[simp] theorem State.appendBit_cwin (b : Bool) : (s.appendBit b).cwin = s.cwin := rfl
@[simp] theorem State.appendBit_recI (b : Bool) : (s.appendBit b).recI = s.recI := rfl
@[simp] theorem State.appendBit_frK (b : Bool) : (s.appendBit b).frK = s.frK := rfl
@[simp] theorem State.appendBit_dir (b : Bool) : (s.appendBit b).dir = s.dir := rfl
@[simp] theorem State.appendBit_decJ (b : Bool) : (s.appendBit b).decJ = s.decJ := rfl
@[simp] theorem State.appendBit_acc (b : Bool) : (s.appendBit b).acc = s.acc := rfl
@[simp] theorem State.appendBit_waveLen (b : Bool) : (s.appendBit b).waveLen = s.waveLen := rfl
@[simp] theorem State.appendBit_ivlCnt (b : Bool) : (s.appendBit b).ivlCnt = s.ivlCnt := rfl
@[simp] theorem State.appendBit_bitCnt (b : Bool) : (s.appendBit b).bitCnt = s.bitCnt + 1 := rfl
@[simp] theorem State.appendBit_symCnt (b : Bool) : (s.appendBit b).symCnt = s.symCnt := rfl
@[simp] theorem State.appendBit_outLen (b : Bool) : (s.appendBit b).outLen = s.outLen := rfl
@[simp] theorem State.appendBit_blk (b : Bool) : (s.appendBit b).blk = s.blk := rfl
@[simp] theorem State.appendBit_idleBuf (b : Bool) : (s.appendBit b).idleBuf = s.idleBuf := rfl
@[simp] theorem State.appendBit_actBuf (b : Bool) : (s.appendBit b).actBuf = s.actBuf := rfl
@[simp] theorem State.appendBit_wave (b : Bool) : (s.appendBit b).wave = s.wave := rfl
@[simp] theorem State.appendBit_ivl (b : Bool) : (s.appendBit b).ivl = s.ivl := rfl
@[simp] theorem State.appendBit_bits (b : Bool) : (s.appendBit b).bits = Buffer.write s.bits s.bitCnt b := rfl
@[simp] theorem State.appendBit_syms (b : Bool) : (s.appendBit b).syms = s.syms := rfl
@[simp] theorem State.appendBit_out (b : Bool) : (s.appendBit b).out = s.out := rfl
@[simp] theorem State.appendBit_blkHere (b : Bool) : (s.appendBit b).blkHere = s.blkHere := rfl
@[simp] theorem State.appendBit_entered (b : Bool) : (s.appendBit b).entered = s.entered := rfl
@[simp] theorem State.appendBit_inputs (b : Bool) : (s.appendBit b).inputs = s.inputs := rfl
@[simp] theorem State.appendBit_hostSaw (b : Bool) : (s.appendBit b).hostSaw = s.hostSaw := rfl
@[simp] theorem State.appendBit_freeCnt (b : Bool) : (s.appendBit b).freeCnt = s.freeCnt := rfl

/-! ### `State.appendSym` -/

@[simp] theorem State.appendSym_phase (w : Symbol) : (s.appendSym w).phase = s.phase := rfl
@[simp] theorem State.appendSym_done (w : Symbol) : (s.appendSym w).done = s.done := rfl
@[simp] theorem State.appendSym_cancelReq (w : Symbol) : (s.appendSym w).cancelReq = s.cancelReq := rfl
@[simp] theorem State.appendSym_waitBlk (w : Symbol) : (s.appendSym w).waitBlk = s.waitBlk := rfl
@[simp] theorem State.appendSym_resultCode (w : Symbol) : (s.appendSym w).resultCode = s.resultCode := rfl
@[simp] theorem State.appendSym_resultLen (w : Symbol) : (s.appendSym w).resultLen = s.resultLen := rfl
@[simp] theorem State.appendSym_pwin (w : Symbol) : (s.appendSym w).pwin = s.pwin := rfl
@[simp] theorem State.appendSym_primeCnt (w : Symbol) : (s.appendSym w).primeCnt = s.primeCnt := rfl
@[simp] theorem State.appendSym_bias (w : Symbol) : (s.appendSym w).bias = s.bias := rfl
@[simp] theorem State.appendSym_actCnt (w : Symbol) : (s.appendSym w).actCnt = s.actCnt := rfl
@[simp] theorem State.appendSym_detJ (w : Symbol) : (s.appendSym w).detJ = s.detJ := rfl
@[simp] theorem State.appendSym_sign (w : Symbol) : (s.appendSym w).sign = s.sign := rfl
@[simp] theorem State.appendSym_thr (w : Symbol) : (s.appendSym w).thr = s.thr := rfl
@[simp] theorem State.appendSym_peak (w : Symbol) : (s.appendSym w).peak = s.peak := rfl
@[simp] theorem State.appendSym_peakIdx (w : Symbol) : (s.appendSym w).peakIdx = s.peakIdx := rfl
@[simp] theorem State.appendSym_prevIdx (w : Symbol) : (s.appendSym w).prevIdx = s.prevIdx := rfl
@[simp] theorem State.appendSym_havePrev (w : Symbol) : (s.appendSym w).havePrev = s.havePrev := rfl
@[simp] theorem State.appendSym_cwin (w : Symbol) : (s.appendSym w).cwin = s.cwin := rfl
@[simp] theorem State.appendSym_recI (w : Symbol) : (s.appendSym w).recI = s.recI := rfl
@[simp] theorem State.appendSym_frK (w : Symbol) : (s.appendSym w).frK = s.frK := rfl
@[simp] theorem State.appendSym_dir (w : Symbol) : (s.appendSym w).dir = s.dir := rfl
@[simp] theorem State.appendSym_decJ (w : Symbol) : (s.appendSym w).decJ = s.decJ := rfl
@[simp] theorem State.appendSym_acc (w : Symbol) : (s.appendSym w).acc = s.acc := rfl
@[simp] theorem State.appendSym_waveLen (w : Symbol) : (s.appendSym w).waveLen = s.waveLen := rfl
@[simp] theorem State.appendSym_ivlCnt (w : Symbol) : (s.appendSym w).ivlCnt = s.ivlCnt := rfl
@[simp] theorem State.appendSym_bitCnt (w : Symbol) : (s.appendSym w).bitCnt = s.bitCnt := rfl
@[simp] theorem State.appendSym_symCnt (w : Symbol) : (s.appendSym w).symCnt = s.symCnt + 1 := rfl
@[simp] theorem State.appendSym_outLen (w : Symbol) : (s.appendSym w).outLen = s.outLen := rfl
@[simp] theorem State.appendSym_blk (w : Symbol) : (s.appendSym w).blk = s.blk := rfl
@[simp] theorem State.appendSym_idleBuf (w : Symbol) : (s.appendSym w).idleBuf = s.idleBuf := rfl
@[simp] theorem State.appendSym_actBuf (w : Symbol) : (s.appendSym w).actBuf = s.actBuf := rfl
@[simp] theorem State.appendSym_wave (w : Symbol) : (s.appendSym w).wave = s.wave := rfl
@[simp] theorem State.appendSym_ivl (w : Symbol) : (s.appendSym w).ivl = s.ivl := rfl
@[simp] theorem State.appendSym_bits (w : Symbol) : (s.appendSym w).bits = s.bits := rfl
@[simp] theorem State.appendSym_syms (w : Symbol) : (s.appendSym w).syms = Buffer.write s.syms s.symCnt w := rfl
@[simp] theorem State.appendSym_out (w : Symbol) : (s.appendSym w).out = s.out := rfl
@[simp] theorem State.appendSym_blkHere (w : Symbol) : (s.appendSym w).blkHere = s.blkHere := rfl
@[simp] theorem State.appendSym_entered (w : Symbol) : (s.appendSym w).entered = s.entered := rfl
@[simp] theorem State.appendSym_inputs (w : Symbol) : (s.appendSym w).inputs = s.inputs := rfl
@[simp] theorem State.appendSym_hostSaw (w : Symbol) : (s.appendSym w).hostSaw = s.hostSaw := rfl
@[simp] theorem State.appendSym_freeCnt (w : Symbol) : (s.appendSym w).freeCnt = s.freeCnt := rfl

/-! ### `State.appendOut` -/

@[simp] theorem State.appendOut_phase (c : Byte) : (s.appendOut c).phase = s.phase := rfl
@[simp] theorem State.appendOut_done (c : Byte) : (s.appendOut c).done = s.done := rfl
@[simp] theorem State.appendOut_cancelReq (c : Byte) : (s.appendOut c).cancelReq = s.cancelReq := rfl
@[simp] theorem State.appendOut_waitBlk (c : Byte) : (s.appendOut c).waitBlk = s.waitBlk := rfl
@[simp] theorem State.appendOut_resultCode (c : Byte) : (s.appendOut c).resultCode = s.resultCode := rfl
@[simp] theorem State.appendOut_resultLen (c : Byte) : (s.appendOut c).resultLen = s.resultLen := rfl
@[simp] theorem State.appendOut_pwin (c : Byte) : (s.appendOut c).pwin = s.pwin := rfl
@[simp] theorem State.appendOut_primeCnt (c : Byte) : (s.appendOut c).primeCnt = s.primeCnt := rfl
@[simp] theorem State.appendOut_bias (c : Byte) : (s.appendOut c).bias = s.bias := rfl
@[simp] theorem State.appendOut_actCnt (c : Byte) : (s.appendOut c).actCnt = s.actCnt := rfl
@[simp] theorem State.appendOut_detJ (c : Byte) : (s.appendOut c).detJ = s.detJ := rfl
@[simp] theorem State.appendOut_sign (c : Byte) : (s.appendOut c).sign = s.sign := rfl
@[simp] theorem State.appendOut_thr (c : Byte) : (s.appendOut c).thr = s.thr := rfl
@[simp] theorem State.appendOut_peak (c : Byte) : (s.appendOut c).peak = s.peak := rfl
@[simp] theorem State.appendOut_peakIdx (c : Byte) : (s.appendOut c).peakIdx = s.peakIdx := rfl
@[simp] theorem State.appendOut_prevIdx (c : Byte) : (s.appendOut c).prevIdx = s.prevIdx := rfl
@[simp] theorem State.appendOut_havePrev (c : Byte) : (s.appendOut c).havePrev = s.havePrev := rfl
@[simp] theorem State.appendOut_cwin (c : Byte) : (s.appendOut c).cwin = s.cwin := rfl
@[simp] theorem State.appendOut_recI (c : Byte) : (s.appendOut c).recI = s.recI := rfl
@[simp] theorem State.appendOut_frK (c : Byte) : (s.appendOut c).frK = s.frK := rfl
@[simp] theorem State.appendOut_dir (c : Byte) : (s.appendOut c).dir = s.dir := rfl
@[simp] theorem State.appendOut_decJ (c : Byte) : (s.appendOut c).decJ = s.decJ := rfl
@[simp] theorem State.appendOut_acc (c : Byte) : (s.appendOut c).acc = s.acc := rfl
@[simp] theorem State.appendOut_waveLen (c : Byte) : (s.appendOut c).waveLen = s.waveLen := rfl
@[simp] theorem State.appendOut_ivlCnt (c : Byte) : (s.appendOut c).ivlCnt = s.ivlCnt := rfl
@[simp] theorem State.appendOut_bitCnt (c : Byte) : (s.appendOut c).bitCnt = s.bitCnt := rfl
@[simp] theorem State.appendOut_symCnt (c : Byte) : (s.appendOut c).symCnt = s.symCnt := rfl
@[simp] theorem State.appendOut_outLen (c : Byte) : (s.appendOut c).outLen = s.outLen + 1 := rfl
@[simp] theorem State.appendOut_blk (c : Byte) : (s.appendOut c).blk = s.blk := rfl
@[simp] theorem State.appendOut_idleBuf (c : Byte) : (s.appendOut c).idleBuf = s.idleBuf := rfl
@[simp] theorem State.appendOut_actBuf (c : Byte) : (s.appendOut c).actBuf = s.actBuf := rfl
@[simp] theorem State.appendOut_wave (c : Byte) : (s.appendOut c).wave = s.wave := rfl
@[simp] theorem State.appendOut_ivl (c : Byte) : (s.appendOut c).ivl = s.ivl := rfl
@[simp] theorem State.appendOut_bits (c : Byte) : (s.appendOut c).bits = s.bits := rfl
@[simp] theorem State.appendOut_syms (c : Byte) : (s.appendOut c).syms = s.syms := rfl
@[simp] theorem State.appendOut_out (c : Byte) : (s.appendOut c).out = Buffer.write s.out s.outLen c := rfl
@[simp] theorem State.appendOut_blkHere (c : Byte) : (s.appendOut c).blkHere = s.blkHere := rfl
@[simp] theorem State.appendOut_entered (c : Byte) : (s.appendOut c).entered = s.entered := rfl
@[simp] theorem State.appendOut_inputs (c : Byte) : (s.appendOut c).inputs = s.inputs := rfl
@[simp] theorem State.appendOut_hostSaw (c : Byte) : (s.appendOut c).hostSaw = s.hostSaw := rfl
@[simp] theorem State.appendOut_freeCnt (c : Byte) : (s.appendOut c).freeCnt = s.freeCnt := rfl

end Sys2Proof.Machine
end

