-- ==== Sys2Proof/Laws/Words.lean ====
section
/-! SUPPORT. What a symbol word's meaning does, said once for all 32 words: the reader decides which shared operation
runs. The provers cite `exec_symbolWord` in place of unfolding a meaning. -/

namespace Sys2Proof.Machine

/-- A word other than `;` and `?` at the entry or in the body of DECODE is what `dataWord` runs. -/
theorem dataWord_reads (w : Symbol) (data : BitVec 4) (c : Byte) (s : State) (hd : dataBits w = data)
    (hc : charOf w = c) (hs : c ≠ startChar) (he : c ≠ endChar) :
    dataWord w data c s = invalidWord w s := by
  subst hd hc
  unfold dataWord invalidWord
  cases symbolReader s <;> simp [State.enterDecode, State.takeSymbol, hs, he]

/-- `;` does what its character makes the shared operations do. -/
theorem startSentinel_reads (s : State) : execStartSentinel s = invalidWord 0x0B#5 s := by
  unfold execStartSentinel invalidWord
  cases symbolReader s <;> rfl

/-- `?` does what its character makes the shared operations do. -/
theorem endSentinel_reads (s : State) : execEndSentinel s = invalidWord 0x1F#5 s := by
  unfold execEndSentinel invalidWord
  cases symbolReader s <;> rfl

/-- Every symbol word does what its reader makes of it: a candidate of the framer, `SYMS[0]` at the entry of DECODE, a
body symbol by its character. -/
theorem exec_symbolWord (w : Symbol) (s : State) :
    exec (decodeSymbol w) s =
      match symbolReader s with
      | .framer => .next (s.frameCandidate w)
      | .decoderEntry => .next (s.enterDecode w)
      | .decoderBody => .next (s.takeSymbol w)
      | .nobody => .fault .symbolNotRead := by
  suffices h : ∀ w : Symbol, exec (decodeSymbol w) s = invalidWord w s from h w
  have hd : ∀ (w : Symbol) (data : BitVec 4) (c : Byte), dataBits w = data → charOf w = c → c ≠ startChar →
      c ≠ endChar → dataWord w data c s = invalidWord w s := fun w data c => dataWord_reads w data c s
  intro w
  obtain ⟨n, hn⟩ := w
  interval_cases n
  all_goals first
    | rfl
    | exact hd _ _ _ (by decide) (by decide) (by decide) (by decide)
    | exact startSentinel_reads s
    | exact endSentinel_reads s

/-- A framed candidate: odd parity stores it, even parity ends framing. -/
theorem State.frameCandidate_odd (w : Symbol) (s : State) (h : oddParity w = true) :
    s.frameCandidate w = s.acceptSymbol w := by simp [frameCandidate, h]

theorem State.frameCandidate_even (w : Symbol) (s : State) (h : oddParity w = false) :
    s.frameCandidate w = s.handOff .decode := by simp [frameCandidate, h]

/-- What the entry step of DECODE can do with `SYMS[0]` (R242 to R244). -/
theorem State.enterDecode_cases (w : Symbol) (s : State) :
    (charOf w = startChar ∧
      s.enterDecode w = { s with dir := false, acc := w, decJ := 1, outLen := 0, entered := true }) ∨
    (charOf w ≠ startChar ∧ charOf (rev (Buffer.read s.syms (s.symCnt - 1))) = startChar ∧
      s.enterDecode w = { s with
        dir := true, acc := rev (Buffer.read s.syms (s.symCnt - 1)), decJ := 1, outLen := 0, entered := true }) ∨
    (charOf w ≠ startChar ∧ charOf (rev (Buffer.read s.syms (s.symCnt - 1))) ≠ startChar ∧
      s.enterDecode w = State.raise .missingStartSentinel { s with dir := true }) := by
  by_cases h : charOf w = startChar <;>
    by_cases h' : charOf (rev (Buffer.read s.syms (s.symCnt - 1))) = startChar <;>
    simp [enterDecode, enterForward, enterReversed, initAcc, h, h']

/-- What a body step of DECODE can do with `S[DEC_J]` (R245 to R247). -/
theorem State.takeSymbol_cases (w : Symbol) (s : State) :
    (charOf w ≠ endChar ∧ s.takeSymbol w = s.takeData (dataBits w) (charOf w)) ∨
    (charOf w = endChar ∧ s.symCnt ≤ s.decJ + 1 ∧
      s.takeSymbol w = State.raise .badLrc { s with acc := forceParity (foldData s.acc (dataBits w)) }) ∨
    (charOf w = endChar ∧ s.decJ + 1 < s.symCnt ∧
      decodedSym s (s.decJ + 1) ≠ forceParity (foldData s.acc (dataBits w)) ∧
      s.takeSymbol w = State.raise .badLrc { s with acc := forceParity (foldData s.acc (dataBits w)) }) ∨
    (charOf w = endChar ∧ s.decJ + 1 < s.symCnt ∧
      decodedSym s (s.decJ + 1) = forceParity (foldData s.acc (dataBits w)) ∧
      s.takeSymbol w = State.raise .ok { s with acc := forceParity (foldData s.acc (dataBits w)) }) := by
  by_cases h : charOf w = endChar
  · by_cases hn : s.symCnt ≤ s.decJ + 1
    · exact .inr (.inl ⟨h, hn, by simp [takeSymbol, takeEnd, checkLrc, h, hn]⟩)
    · have hd : ∀ a, decodedSym { s with acc := a } (s.decJ + 1) = decodedSym s (s.decJ + 1) := fun _ => rfl
      by_cases he : decodedSym s (s.decJ + 1) = forceParity (foldData s.acc (dataBits w))
      · exact .inr (.inr (.inr ⟨h, by omega, he, by simp [takeSymbol, takeEnd, checkLrc, h, hn, hd, he]⟩))
      · exact .inr (.inr (.inl ⟨h, by omega, he, by simp [takeSymbol, takeEnd, checkLrc, h, hn, hd, he]⟩))
  · exact .inl ⟨h, by simp [takeSymbol, h]⟩

end Sys2Proof.Machine
end

