-- ==== Sys2Proof/Laws/Step.lean ====
section
/-! SUPPORT. Everything a step can do, said once: the shapes of a core step (`CoreMove`), of a command and of a move at
a port, with their guards. Invariants are proved by cases over these in place of unfolding the step. -/

namespace Sys2Proof.Machine

/-- `CoreMove P s t`: the core's step takes `s` to `t`; one constructor per rule that can apply. -/
inductive CoreMove (P : Params) (s : State) : State → Prop where
  /-- R75: a request is outstanding. -/
  | waits (hw : s.waitBlk = true) : CoreMove P s s
  /-- R323: IDLE. -/
  | idles (hw : s.waitBlk = false) (hp : s.phase = .idle) : CoreMove P s s
  /-- R151. -/
  | cancelled (hw : s.waitBlk = false) (hp : s.phase = .prime ∨ s.phase = .scan) (hb : s.blkHere = false)
      (hc : s.cancelReq = true) : CoreMove P s (s.raise .cancelled)
  /-- R151, R152. -/
  | requests (hw : s.waitBlk = false) (hp : s.phase = .prime ∨ s.phase = .scan) (hb : s.blkHere = false)
      (hc : s.cancelReq = false) : CoreMove P s s.requestBlock
  /-- R154. -/
  | primes (hw : s.waitBlk = false) (hp : s.phase = .prime) (hb : s.blkHere = true) (hn : s.primeCnt < P.powWin) :
      CoreMove P s { s.consumeBlock P with
        pwin := s.pwin.set s.primeCnt (blockPower P s)
        idleBuf := Buffer.writeList s.idleBuf 0 (corrected P s)
        primeCnt := s.primeCnt + 1
        phase := if s.primeCnt + 1 = P.powWin then .scan else .prime }
  /-- R157 at the capacity. -/
  | overflows (hw : s.waitBlk = false) (hp : s.phase = .scan) (hb : s.blkHere = true)
      (ha : isActive P (blockPower P s) s.windowSum = true) (hm : P.maxActive = some s.actCnt) :
      CoreMove P s ((s.consumeBlock P).raise .captureOverflow)
  /-- R157. -/
  | activeBlock (hw : s.waitBlk = false) (hp : s.phase = .scan) (hb : s.blkHere = true)
      (ha : isActive P (blockPower P s) s.windowSum = true) (hm : P.maxActive ≠ some s.actCnt) :
      CoreMove P s { s.consumeBlock P with
        actBuf := Buffer.writeList s.actBuf (s.actCnt * P.blockN) (corrected P s)
        actCnt := s.actCnt + 1 }
  /-- R158. -/
  | idleBlock (hw : s.waitBlk = false) (hp : s.phase = .scan) (hb : s.blkHere = true)
      (ha : isActive P (blockPower P s) s.windowSum = false) (hn : s.actCnt = 0) : CoreMove P s (idleStep P s)
  /-- R162. -/
  | noiseBlock (hw : s.waitBlk = false) (hp : s.phase = .scan) (hb : s.blkHere = true)
      (ha : isActive P (blockPower P s) s.windowSum = false) (hn : s.actCnt = 1) : CoreMove P s (noiseStep P s)
  /-- R159. -/
  | eventBlock (hw : s.waitBlk = false) (hp : s.phase = .scan) (hb : s.blkHere = true)
      (ha : isActive P (blockPower P s) s.windowSum = false) (hn : 2 ≤ s.actCnt) : CoreMove P s (eventStep P s)
  /-- R180. -/
  | noWaveform (hw : s.waitBlk = false) (hp : s.phase = .detect) (he : s.entered = false) (hn : s.waveLen = 0) :
      CoreMove P s (detectEmpty s)
  /-- R181. -/
  | detectBegins (hw : s.waitBlk = false) (hp : s.phase = .detect) (he : s.entered = false) (hn : 0 < s.waveLen) :
      CoreMove P s (detectEntry P s)
  /-- R183. -/
  | runSampled (hw : s.waitBlk = false) (hp : s.phase = .detect) (he : s.entered = true) (hn : s.detJ < s.waveLen)
      (ha : aboveThr P s = true) : CoreMove P s (detectAdvance (runSample s))
  /-- R184. -/
  | runEnds (hw : s.waitBlk = false) (hp : s.phase = .detect) (he : s.entered = true) (hn : s.detJ < s.waveLen)
      (ha : aboveThr P s = false) (hk : s.peak ≠ 0) (hi : s.havePrev = true → s.prevIdx ≤ s.peakIdx) :
      CoreMove P s (detectAdvance (endRun P s))
  /-- R185. -/
  | sampleSkipped (hw : s.waitBlk = false) (hp : s.phase = .detect) (he : s.entered = true)
      (hn : s.detJ < s.waveLen) (ha : aboveThr P s = false) (hk : s.peak = 0) : CoreMove P s (detectAdvance s)
  /-- R200. -/
  | tooFewIntervals (hw : s.waitBlk = false) (hp : s.phase = .recover) (he : s.entered = false)
      (hn : s.ivlCnt < leadIn P) : CoreMove P s (recoverTooFew s)
  /-- R202. -/
  | recoverBegins (hw : s.waitBlk = false) (hp : s.phase = .recover) (he : s.entered = false)
      (hn : leadIn P ≤ s.ivlCnt) : CoreMove P s (recoverSeed P s)
  /-- R206. -/
  | recoverEnds (hw : s.waitBlk = false) (hp : s.phase = .recover) (he : s.entered = true)
      (hn : s.ivlCnt < leadIn P + s.recI + 2) : CoreMove P s (s.handOff .frame)
  /-- R204. -/
  | longInterval (hw : s.waitBlk = false) (hp : s.phase = .recover) (he : s.entered = true)
      (hn : leadIn P + s.recI + 2 ≤ s.ivlCnt) (hl : isLong P (nextInterval P s) s.cwin.sum = true) :
      CoreMove P s (longCell (nextInterval P s) s)
  /-- R205. -/
  | shortInterval (hw : s.waitBlk = false) (hp : s.phase = .recover) (he : s.entered = true)
      (hn : leadIn P + s.recI + 2 ≤ s.ivlCnt) (hl : isLong P (nextInterval P s) s.cwin.sum = false) :
      CoreMove P s (shortCells (nextInterval P s) s)
  /-- R220. -/
  | noBits (hw : s.waitBlk = false) (hp : s.phase = .frame) (he : s.entered = false) (hn : s.bitCnt = 0) :
      CoreMove P s (s.raise .emptyCapture)
  /-- R221. -/
  | frameBegins (hw : s.waitBlk = false) (hp : s.phase = .frame) (he : s.entered = false) (hn : 0 < s.bitCnt) :
      CoreMove P s (frameEntry s)
  /-- R222. -/
  | shortRead (hw : s.waitBlk = false) (hp : s.phase = .frame) (he : s.entered = true) (hn : s.bitCnt < s.frK + 5) :
      CoreMove P s (s.handOff .decode)
  /-- R224. -/
  | symbolAccepted (hw : s.waitBlk = false) (hp : s.phase = .frame) (he : s.entered = true)
      (hn : s.frK + 5 ≤ s.bitCnt) (ho : oddParity (candidate s) = true) :
      CoreMove P s (s.acceptSymbol (candidate s))
  /-- R223. -/
  | badParity (hw : s.waitBlk = false) (hp : s.phase = .frame) (he : s.entered = true)
      (hn : s.frK + 5 ≤ s.bitCnt) (ho : oddParity (candidate s) = false) : CoreMove P s (s.handOff .decode)
  /-- R240. -/
  | noSymbols (hw : s.waitBlk = false) (hp : s.phase = .decode) (he : s.entered = false) (hn : s.symCnt = 0) :
      CoreMove P s (s.raise .emptyCapture)
  /-- R242 to R244. -/
  | decodeBegins (hw : s.waitBlk = false) (hp : s.phase = .decode) (he : s.entered = false) (hn : 0 < s.symCnt) :
      CoreMove P s (s.enterDecode (Buffer.read s.syms 0))
  /-- R245: the symbols are exhausted. -/
  | exhausted (hw : s.waitBlk = false) (hp : s.phase = .decode) (he : s.entered = true) (hn : s.symCnt ≤ s.decJ) :
      CoreMove P s (s.raise .missingEndSentinel)
  /-- R245 to R248. -/
  | symbolTaken (hw : s.waitBlk = false) (hp : s.phase = .decode) (he : s.entered = true) (hn : s.decJ < s.symCnt) :
      CoreMove P s (s.takeSymbol (decodedSym s s.decJ))

/-- What the core's step runs: the word it reads, or a stage operation. -/
theorem coreStep_word (P : Params) (s : State) (w : Symbol) (h : fetchWord s = some w) :
    coreStep P s = exec (decodeSymbol w) s := by simp [coreStep, h]

theorem coreStep_stage (P : Params) (s : State) (h : fetchWord s = none) : coreStep P s = stageStep P s := by
  simp [coreStep, h]

/-- In the phases before FRAME no symbol word is read. -/
theorem fetchWord_none_of_phase (s : State) (h₁ : s.phase ≠ .frame) (h₂ : s.phase ≠ .decode) : fetchWord s = none := by
  unfold fetchWord symbolReader
  cases hp : s.phase <;> cases s.entered <;> simp_all

theorem coreStep_waiting (P : Params) (s : State) (hw : s.waitBlk = true) : coreStep P s = .next s := by
  rw [coreStep_stage P s (by simp [fetchWord, hw])]
  simp [stageStep, hw]

theorem coreStep_idle (P : Params) (s : State) (hw : s.waitBlk = false) (hp : s.phase = .idle) :
    coreStep P s = .next s := by
  rw [coreStep_stage P s (fetchWord_none_of_phase s (by simp [hp]) (by simp [hp]))]
  simp [stageStep, hw, hp]

theorem coreStep_prime (P : Params) (s : State) (hw : s.waitBlk = false) (hp : s.phase = .prime) :
    coreStep P s = if s.blkHere then primeStep P s else .next (beginBlockStep s) := by
  rw [coreStep_stage P s (fetchWord_none_of_phase s (by simp [hp]) (by simp [hp]))]
  simp [stageStep, hw, hp]

theorem coreStep_scan (P : Params) (s : State) (hw : s.waitBlk = false) (hp : s.phase = .scan) :
    coreStep P s = if s.blkHere then .next (scanStep P s) else .next (beginBlockStep s) := by
  rw [coreStep_stage P s (fetchWord_none_of_phase s (by simp [hp]) (by simp [hp]))]
  simp [stageStep, hw, hp]

theorem coreStep_detect (P : Params) (s : State) (hw : s.waitBlk = false) (hp : s.phase = .detect) :
    coreStep P s = detectStep P s := by
  rw [coreStep_stage P s (fetchWord_none_of_phase s (by simp [hp]) (by simp [hp]))]
  simp [stageStep, hw, hp]

theorem coreStep_detect_empty (P : Params) (s : State) (hw : s.waitBlk = false) (hp : s.phase = .detect)
    (he : s.entered = false) (hn : s.waveLen = 0) : coreStep P s = .next (detectEmpty s) := by
  rw [coreStep_detect P s hw hp]
  simp only [detectStep, he, hn, if_true, Bool.false_eq_true, if_false]

theorem coreStep_detect_entry (P : Params) (s : State) (hw : s.waitBlk = false) (hp : s.phase = .detect)
    (he : s.entered = false) (hn : 0 < s.waveLen) : coreStep P s = .next (detectEntry P s) := by
  rw [coreStep_detect P s hw hp]
  simp only [detectStep, he, Bool.false_eq_true, if_false, if_neg (Nat.pos_iff_ne_zero.mp hn)]

/-- R183: a sample above the threshold. -/
theorem coreStep_detect_run (P : Params) (s : State) (hw : s.waitBlk = false) (hp : s.phase = .detect)
    (he : s.entered = true) (hn : s.detJ < s.waveLen) (ha : aboveThr P s = true) :
    coreStep P s = .next (detectAdvance (runSample s)) := by
  rw [coreStep_detect P s hw hp]
  simp only [detectStep, he, if_true, detectSample, if_neg (Nat.not_le.mpr hn), ha]

/-- R184: a sample at or below the threshold that ends an open run. -/
theorem coreStep_detect_end (P : Params) (s : State) (hw : s.waitBlk = false) (hp : s.phase = .detect)
    (he : s.entered = true) (hn : s.detJ < s.waveLen) (ha : aboveThr P s = false) (hk : s.peak ≠ 0)
    (hi : s.havePrev = true → s.prevIdx ≤ s.peakIdx) :
    coreStep P s = .next (detectAdvance (endRun P s)) := by
  have hg : (s.havePrev && decide (s.peakIdx < s.prevIdx)) = false := by
    cases hv : s.havePrev
    · rfl
    · simpa using hi hv
  rw [coreStep_detect P s hw hp]
  simp only [detectStep, he, if_true, detectSample, if_neg (Nat.not_le.mpr hn), ha, if_pos hk, hg,
    Bool.false_eq_true, if_false]

/-- R185: a sample at or below the threshold with no open run. -/
theorem coreStep_detect_quiet (P : Params) (s : State) (hw : s.waitBlk = false) (hp : s.phase = .detect)
    (he : s.entered = true) (hn : s.detJ < s.waveLen) (ha : aboveThr P s = false) (hk : s.peak = 0) :
    coreStep P s = .next (detectAdvance s) := by
  rw [coreStep_detect P s hw hp]
  simp only [detectStep, he, if_true, detectSample, if_neg (Nat.not_le.mpr hn), ha, if_neg (not_not.mpr hk),
    Bool.false_eq_true, if_false]

theorem coreStep_recover (P : Params) (s : State) (hw : s.waitBlk = false) (hp : s.phase = .recover) :
    coreStep P s = .next (recoverStep P s) := by
  rw [coreStep_stage P s (fetchWord_none_of_phase s (by simp [hp]) (by simp [hp]))]
  simp [stageStep, hw, hp]

theorem coreStep_recover_seed (P : Params) (s : State) (hw : s.waitBlk = false) (hp : s.phase = .recover)
    (he : s.entered = false) (hn : leadIn P ≤ s.ivlCnt) : coreStep P s = .next (recoverSeed P s) := by
  rw [coreStep_recover P s hw hp]
  simp only [recoverStep, he, Bool.false_eq_true, if_false, if_neg (Nat.not_lt.mpr hn)]

theorem coreStep_recover_end (P : Params) (s : State) (hw : s.waitBlk = false) (hp : s.phase = .recover)
    (he : s.entered = true) (hn : s.ivlCnt < leadIn P + s.recI + 2) : coreStep P s = .next (s.handOff .frame) := by
  rw [coreStep_recover P s hw hp]
  simp only [recoverStep, he, if_true, recoverLoop, if_pos hn]

/-- R203 to R205: one classification. -/
theorem coreStep_recover_classify (P : Params) (s : State) (hw : s.waitBlk = false) (hp : s.phase = .recover)
    (he : s.entered = true) (hn : leadIn P + s.recI + 2 ≤ s.ivlCnt) : coreStep P s = .next (classify P s) := by
  rw [coreStep_recover P s hw hp]
  simp only [recoverStep, he, if_true, recoverLoop, if_neg (Nat.not_lt.mpr hn)]

theorem coreStep_frame_entry (P : Params) (s : State) (hw : s.waitBlk = false) (hp : s.phase = .frame)
    (he : s.entered = false) : coreStep P s = .next (frameStage s) := by
  rw [coreStep_stage P s (by simp [fetchWord, symbolReader, hw, hp, he])]
  simp [stageStep, hw, hp]

theorem coreStep_frame_short (P : Params) (s : State) (hw : s.waitBlk = false) (hp : s.phase = .frame)
    (he : s.entered = true) (hn : s.bitCnt < s.frK + 5) : coreStep P s = .next (s.handOff .decode) := by
  rw [coreStep_stage P s (by simp [fetchWord, symbolReader, hw, hp, he, tooFewBits, hn])]
  simp [stageStep, hw, hp, frameStage, he]

theorem coreStep_frame_candidate (P : Params) (s : State) (hw : s.waitBlk = false) (hp : s.phase = .frame)
    (he : s.entered = true) (hn : s.frK + 5 ≤ s.bitCnt) :
    coreStep P s = .next (s.frameCandidate (candidate s)) := by
  rw [coreStep_word P s (candidate s)
    (by simp [fetchWord, symbolReader, hw, hp, he, tooFewBits, Nat.not_lt.mpr hn]), exec_symbolWord]
  simp [symbolReader, hp, he]

theorem coreStep_decode_empty (P : Params) (s : State) (hw : s.waitBlk = false) (hp : s.phase = .decode)
    (he : s.entered = false) (hn : s.symCnt = 0) : coreStep P s = .next (s.raise .emptyCapture) := by
  rw [coreStep_stage P s (by simp [fetchWord, symbolReader, hw, hp, he, hn])]
  simp [stageStep, hw, hp, decodeStage, he]

theorem coreStep_decode_entry (P : Params) (s : State) (hw : s.waitBlk = false) (hp : s.phase = .decode)
    (he : s.entered = false) (hn : 0 < s.symCnt) :
    coreStep P s = .next (s.enterDecode (Buffer.read s.syms 0)) := by
  rw [coreStep_word P s (Buffer.read s.syms 0)
    (by simp [fetchWord, symbolReader, hw, hp, he, Nat.pos_iff_ne_zero.mp hn]), exec_symbolWord]
  simp [symbolReader, hp, he]

theorem coreStep_decode_exhausted (P : Params) (s : State) (hw : s.waitBlk = false) (hp : s.phase = .decode)
    (he : s.entered = true) (hn : s.symCnt ≤ s.decJ) : coreStep P s = .next (s.raise .missingEndSentinel) := by
  rw [coreStep_stage P s (by simp [fetchWord, symbolReader, hw, hp, he, hn])]
  simp [stageStep, hw, hp, decodeStage, he]

theorem coreStep_decode_body (P : Params) (s : State) (hw : s.waitBlk = false) (hp : s.phase = .decode)
    (he : s.entered = true) (hn : s.decJ < s.symCnt) :
    coreStep P s = .next (s.takeSymbol (decodedSym s s.decJ)) := by
  rw [coreStep_word P s (decodedSym s s.decJ)
    (by simp [fetchWord, symbolReader, hw, hp, he, Nat.not_le.mpr hn]), exec_symbolWord]
  simp [symbolReader, hp, he]

/-- A core step that goes on is one of the moves. -/
theorem coreStep_cases (P : Params) (s t : State) (h : coreStep P s = .next t) : CoreMove P s t := by
  cases hw : s.waitBlk with
  | true => rw [coreStep_waiting P s hw] at h; cases h; exact .waits hw
  | false =>
    have begins : (s.phase = .prime ∨ s.phase = .scan) → s.blkHere = false → beginBlockStep s = t →
        CoreMove P s t := by
      rintro hp hb rfl
      cases hc : s.cancelReq
      · simpa [beginBlockStep, hc] using CoreMove.requests hw hp hb hc
      · simpa [beginBlockStep, hc] using CoreMove.cancelled hw hp hb hc
    cases hp : s.phase with
    | idle => rw [coreStep_idle P s hw hp] at h; cases h; exact .idles hw hp
    | prime =>
      rw [coreStep_prime P s hw hp] at h
      cases hb : s.blkHere with
      | false => simp only [hb] at h; exact begins (.inl hp) hb (by simpa using h)
      | true =>
        simp only [hb, if_true, primeStep] at h
        split at h
        · rename_i hn; cases h; exact .primes hw hp hb hn
        · cases h
    | scan =>
      rw [coreStep_scan P s hw hp] at h
      cases hb : s.blkHere with
      | false => simp only [hb] at h; exact begins (.inr hp) hb (by simpa using h)
      | true =>
        simp only [hb, if_true, Host.Outcome.next.injEq] at h
        subst h
        unfold scanStep
        split
        · rename_i ha
          unfold activeStep captureFull
          split
          · rename_i hm; exact .overflows hw hp hb ha (by simpa using hm)
          · rename_i hm; exact .activeBlock hw hp hb ha (by simpa using hm)
        · rename_i ha
          have ha : isActive P (blockPower P s) s.windowSum = false := by simpa using ha
          split
          · rename_i hn; exact .idleBlock hw hp hb ha hn
          · split
            · rename_i hn; exact .noiseBlock hw hp hb ha hn
            · exact .eventBlock hw hp hb ha (by omega)
    | detect =>
      rw [coreStep_detect P s hw hp] at h
      unfold detectStep at h
      cases he : s.entered with
      | false =>
        simp only [he, Bool.false_eq_true, if_false] at h
        split at h
        · rename_i hn; cases h; exact .noWaveform hw hp he hn
        · cases h; exact .detectBegins hw hp he (by omega)
      | true =>
        simp only [he, if_true, detectSample] at h
        split at h
        · cases h
        · rename_i hn
          split at h
          · rename_i ha; cases h; exact .runSampled hw hp he (by omega) ha
          · rename_i ha
            split at h
            · rename_i hk
              split at h
              · cases h
              · rename_i hi; cases h
                refine .runEnds hw hp he (by omega) (by simpa using ha) hk fun hv => ?_
                simp [hv] at hi; exact hi
            · rename_i hk; cases h; exact .sampleSkipped hw hp he (by omega) (by simpa using ha) (by simpa using hk)
    | recover =>
      rw [coreStep_recover P s hw hp] at h
      cases h
      unfold recoverStep recoverLoop classify
      cases he : s.entered with
      | false =>
        simp only [Bool.false_eq_true, if_false]
        split
        · rename_i hn; exact .tooFewIntervals hw hp he hn
        · exact .recoverBegins hw hp he (by omega)
      | true =>
        simp only [if_true]
        split
        · rename_i hn; exact .recoverEnds hw hp he hn
        · split
          · rename_i hl; exact .longInterval hw hp he (by omega) hl
          · rename_i hl; exact .shortInterval hw hp he (by omega) (by simpa using hl)
    | frame =>
      cases he : s.entered with
      | false =>
        rw [coreStep_frame_entry P s hw hp he] at h
        cases h
        simp only [frameStage, he, Bool.false_eq_true, if_false]
        split
        · rename_i hn; exact .noBits hw hp he hn
        · exact .frameBegins hw hp he (by omega)
      | true =>
        rcases Nat.lt_or_ge s.bitCnt (s.frK + 5) with hn | hn
        · rw [coreStep_frame_short P s hw hp he hn] at h; cases h; exact .shortRead hw hp he hn
        · rw [coreStep_frame_candidate P s hw hp he hn] at h
          cases h
          cases ho : oddParity (candidate s)
          · rw [State.frameCandidate_even _ _ ho]; exact .badParity hw hp he hn ho
          · rw [State.frameCandidate_odd _ _ ho]; exact .symbolAccepted hw hp he hn ho
    | decode =>
      cases he : s.entered with
      | false =>
        rcases Nat.eq_zero_or_pos s.symCnt with hn | hn
        · rw [coreStep_decode_empty P s hw hp he hn] at h; cases h; exact .noSymbols hw hp he hn
        · rw [coreStep_decode_entry P s hw hp he hn] at h; cases h; exact .decodeBegins hw hp he hn
      | true =>
        rcases Nat.lt_or_ge s.decJ s.symCnt with hn | hn
        · rw [coreStep_decode_body P s hw hp he hn] at h; cases h; exact .symbolTaken hw hp he hn
        · rw [coreStep_decode_exhausted P s hw hp he hn] at h; cases h; exact .exhausted hw hp he hn
    | reserved =>
      rw [coreStep_stage P s (fetchWord_none_of_phase s (by simp [hp]) (by simp [hp]))] at h
      simp [stageStep, hw, hp] at h

/-- What a command can do (R131 to R135). -/
theorem exec_command_cases (c : Command) (s t : State) (h : exec (decodeCommand c) s = .next t) :
    (c = 0b01#2 ∧ s.phase = .idle ∧ t = s.startInvocation) ∨
    (c = 0b10#2 ∧ (s.phase = .prime ∨ s.phase = .scan) ∧ t = { s with cancelReq := true }) ∨ t = s := by
  have hc : c = 0b00#2 ∨ c = 0b01#2 ∨ c = 0b10#2 ∨ c = 0b11#2 := by
    obtain ⟨n, hn⟩ := c
    interval_cases n
    · exact .inl rfl
    · exact .inr (.inl rfl)
    · exact .inr (.inr (.inl rfl))
    · exact .inr (.inr (.inr rfl))
  rcases hc with rfl | rfl | rfl | rfl
  · exact .inr (.inr (by simpa [decodeCommand, exec, execNop] using h.symm))
  · change execStart s = _ at h
    unfold execStart at h
    split at h
    · rename_i hp; cases h; exact .inl ⟨rfl, hp, rfl⟩
    · cases h; exact .inr (.inr rfl)
  · change execCancel s = _ at h
    unfold execCancel at h
    split at h
    · rename_i hp; cases h; exact .inr (.inl ⟨rfl, hp, rfl⟩)
    · cases h; exact .inr (.inr rfl)
  · exact .inr (.inr (by simpa [decodeCommand, exec, execReservedCmd] using h.symm))

/-- What a move at a port other than `CMD` can do. -/
theorem portStep_cases (P : Params) (m : PortMove) (s t : State) (h : portStep P m s = .next t) :
    (∃ bytes, m = .deliver bytes ∧ s.waitBlk = true ∧ bytes.length = 2 * P.blockN ∧
      t = s.takeBlock (samplesOfBytes bytes)) ∨
    (m = .reset ∧ t = resetStep P s) ∨
    (m ≠ .reset ∧ ∃ v n, t = { s with hostSaw := v, freeCnt := n }) := by
  cases m with
  | deliver bytes =>
    simp only [portStep, deliverStep] at h
    split at h
    · rename_i hw
      split at h
      · rename_i hl; cases h
        exact .inl ⟨bytes, rfl, hw, by simpa [Params.deliveryWellFormed] using hl, rfl⟩
      · cases h
    · cases h
  | reset => cases h; exact .inr (.inl ⟨rfl, rfl⟩)
  | readStatus =>
    simp only [portStep, readStatusStep] at h
    split at h
    · cases h
    · cases h; exact .inr (.inr ⟨by simp, _, s.freeCnt, rfl⟩)
  | readLen => cases h; exact .inr (.inr ⟨by simp, _, s.freeCnt, rfl⟩)
  | readOut k =>
    simp only [portStep, readOutMove] at h
    split at h
    · cases h; exact .inr (.inr ⟨by simp, _, _, rfl⟩)
    · cases h

/-- A step that goes on is the core's, a command's or a port's, at the state with the move taken off the tape. -/
theorem stepWith_cases (P : Params) (s t : State) (h : stepWith P s = .next t) :
    (∃ rest, (s.inputs = [] ∧ rest = [] ∨ s.inputs = .core :: rest) ∧ CoreMove P { s with inputs := rest } t) ∨
    (∃ c rest, s.inputs = .command c :: rest ∧ exec (decodeCommand c) { s with inputs := rest } = .next t) ∨
    (∃ m rest, s.inputs = .port m :: rest ∧ portStep P m { s with inputs := rest } = .next t) := by
  unfold stepWith at h
  split at h
  · rename_i hi
    refine .inl ⟨[], .inl ⟨hi, rfl⟩, ?_⟩
    have : { s with inputs := [] } = s := by cases s; simp_all
    rw [this]; exact coreStep_cases P s t h
  · rename_i rest hi; exact .inl ⟨rest, .inr hi, coreStep_cases P _ t h⟩
  · rename_i c rest hi; exact .inr (.inl ⟨c, rest, hi, h⟩)
  · rename_i m rest hi; exact .inr (.inr ⟨m, rest, hi, h⟩)

end Sys2Proof.Machine
end

