-- ==== Sys2Proof/Tests/Slice0.lean ====
section
/-! SUPPORT. The model's own tests: decoding of every word as the spec writes it, the ill-formed terms the checks refuse,
at most two one-step tests per instruction, and for every statement with hypotheses a concrete state that meets them.
Expected values come from the spec: the tables of R109, R110, R126, the examples of the rules, hand calculation. -/

namespace Sys2Proof.Machine.Tests

/-! ### Helpers -/

/-- The reset state at the entry (`false`) or inside (`true`) of a stage. -/
def base (p : Phase) (e : Bool) : State := { State.reset with phase := p, entered := e }

/-- The state a step answers with, if it goes on. -/
def after (o : Host.Outcome State Fault Refusal) : Option State :=
  match o with
  | .next t => some t
  | .fault _ => none
  | .refused _ => none

/-- The fault a step stops with, if it does. -/
def stopped (o : Host.Outcome State Fault Refusal) : Option Fault :=
  match o with
  | .fault r => some r
  | .next _ => none
  | .refused _ => none

/-- A decoder inside the body of `;` .. with `ACC` = 0x0B, about to read `SYMS[1]` of three. -/
def body : State := { base .decode true with acc := 0x0B#5, decJ := 1, symCnt := 3 }

/-- The decoder about to enter, with the symbols given. -/
def symbols (ws : List Symbol) : State :=
  { base .decode false with syms := Buffer.writeList [] 0 ws, symCnt := ws.length }

/-- The framer about to read a candidate: the five bits given, in reception order. -/
def candidateOf (b0 b1 b2 b3 b4 : Bool) : State :=
  { base .frame true with bits := Buffer.writeList [] 0 [b0, b1, b2, b3, b4], bitCnt := 5 }

/-- Small parameters, well formed. -/
def tiny : Params :=
  { Config.params with blockN := 2, powWin := 2, trimChunk := 1, maxActive := some 4, initWindow := 2, discard := 0, clkWin := 1 }

/-- A segmenter between its request and the delivery. -/
def waiting : State := { base .prime false with waitBlk := true }

/-- A segmenter with the block [0, 20] delivered. -/
def holding (p : Phase) : State :=
  { base p false with blkHere := true, blk := [(1, 20#16)], pwin := [2, 2] }

/-! ### Decoding: words in reception order, `SYM[0]` first (R103, R109, R126), command codes (R110) -/

theorem test_decode_digit0 : decodeSymbol (wordOfBits false false false false true) = .digit0 := by decide
theorem test_decode_digit1 : decodeSymbol (wordOfBits true false false false false) = .digit1 := by decide
theorem test_decode_digit2 : decodeSymbol (wordOfBits false true false false false) = .digit2 := by decide
theorem test_decode_digit3 : decodeSymbol (wordOfBits true true false false true) = .digit3 := by decide
theorem test_decode_digit4 : decodeSymbol (wordOfBits false false true false false) = .digit4 := by decide
theorem test_decode_digit5 : decodeSymbol (wordOfBits true false true false true) = .digit5 := by decide
theorem test_decode_digit6 : decodeSymbol (wordOfBits false true true false true) = .digit6 := by decide
theorem test_decode_digit7 : decodeSymbol (wordOfBits true true true false false) = .digit7 := by decide
theorem test_decode_digit8 : decodeSymbol (wordOfBits false false false true false) = .digit8 := by decide
theorem test_decode_digit9 : decodeSymbol (wordOfBits true false false true true) = .digit9 := by decide
theorem test_decode_colon : decodeSymbol (wordOfBits false true false true true) = .colon := by decide
theorem test_decode_startSentinel : decodeSymbol (wordOfBits true true false true false) = .startSentinel := by decide
theorem test_decode_less : decodeSymbol (wordOfBits false false true true true) = .less := by decide
theorem test_decode_fieldSep : decodeSymbol (wordOfBits true false true true false) = .fieldSep := by decide
theorem test_decode_greater : decodeSymbol (wordOfBits false true true true false) = .greater := by decide
theorem test_decode_endSentinel : decodeSymbol (wordOfBits true true true true true) = .endSentinel := by decide
theorem test_decode_invalid00 : decodeSymbol (wordOfBits false false false false false) = .invalid00 := by decide
theorem test_decode_invalid03 : decodeSymbol (wordOfBits true true false false false) = .invalid03 := by decide
theorem test_decode_invalid05 : decodeSymbol (wordOfBits true false true false false) = .invalid05 := by decide
theorem test_decode_invalid06 : decodeSymbol (wordOfBits false true true false false) = .invalid06 := by decide
theorem test_decode_invalid09 : decodeSymbol (wordOfBits true false false true false) = .invalid09 := by decide
theorem test_decode_invalid0A : decodeSymbol (wordOfBits false true false true false) = .invalid0A := by decide
theorem test_decode_invalid0C : decodeSymbol (wordOfBits false false true true false) = .invalid0C := by decide
theorem test_decode_invalid0F : decodeSymbol (wordOfBits true true true true false) = .invalid0F := by decide
theorem test_decode_invalid11 : decodeSymbol (wordOfBits true false false false true) = .invalid11 := by decide
theorem test_decode_invalid12 : decodeSymbol (wordOfBits false true false false true) = .invalid12 := by decide
theorem test_decode_invalid14 : decodeSymbol (wordOfBits false false true false true) = .invalid14 := by decide
theorem test_decode_invalid17 : decodeSymbol (wordOfBits true true true false true) = .invalid17 := by decide
theorem test_decode_invalid18 : decodeSymbol (wordOfBits false false false true true) = .invalid18 := by decide
theorem test_decode_invalid1B : decodeSymbol (wordOfBits true true false true true) = .invalid1B := by decide
theorem test_decode_invalid1D : decodeSymbol (wordOfBits true false true true true) = .invalid1D := by decide
theorem test_decode_invalid1E : decodeSymbol (wordOfBits false true true true true) = .invalid1E := by decide
theorem test_decode_nop : decodeCommand 0b00#2 = .nop := by decide
theorem test_decode_start : decodeCommand 0b01#2 = .start := by decide
theorem test_decode_cancel : decodeCommand 0b10#2 = .cancel := by decide
theorem test_decode_reservedCmd : decodeCommand 0b11#2 = .reservedCmd := by decide

theorem test_wide_symbol_rejected : decode .symbol 0x20#8 = .error .symbolWordTooWide := rfl
theorem test_wide_command_rejected : decode .command 0x04#8 = .error .commandCodeTooWide := rfl
theorem test_table_symbol : decodeTableWord 8 0x0B = some .startSentinel := rfl
theorem test_table_symbol_even : decodeTableWord 8 0x1E = some .invalid1E := rfl
theorem test_table_symbol_upper_bits : decodeTableWord 8 0xF0 = some .digit0 := rfl
theorem test_table_command : decodeTableWord 2 0b01 = some .start := rfl
/-- The four codes 0x00 to 0x03 exist in both spaces; asked for with eight bits they are symbol words (log 17). -/
theorem test_table_shared_code : decodeTableWord 8 0x01 = some .digit1 := rfl

/-! ### Words placed where the machine reads its next one (log 18): the step runs them -/

theorem test_place_odd_word : (after (step (State.reset.withFetchWord 8 0x13))).map
    (fun t => (Buffer.read t.out 0, t.outLen, t.decJ)) = some (0x33#8, 1, 2) := by decide
theorem test_place_even_word : (after (step (State.reset.withFetchWord 8 0x03))).map
    (fun t => (t.phase, t.symCnt)) = some (.decode, 0) := by decide
theorem test_place_command : (after (step (State.reset.withFetchWord 2 0b01))).map State.phase = some .prime := by decide

/-! ### What the checks of WellFormed refuse -/

theorem test_host_must_not_issue_reserved : Instr.reservedCmd.hostMayIssue = false := by decide
theorem test_host_may_issue_start : Instr.start.hostMayIssue = true := by decide
theorem test_even_word_not_in_syms : Instr.invalid0F.mayStandInSyms = false := by decide
theorem test_command_not_in_syms : Instr.start.mayStandInSyms = false := by decide
theorem test_odd_word_in_syms : Instr.greater.mayStandInSyms = true := by decide
theorem test_ratio_needs_denominator : (Ratio.mk 1 0).wellFormed = false := by decide
theorem test_default_params_wellFormed : Config.params.wellFormed = true := by decide
theorem test_tiny_params_wellFormed : tiny.wellFormed = true := by decide
theorem test_params_zero_block : { tiny with blockN := 0 }.wellFormed = false := by decide
theorem test_params_zero_window : { tiny with powWin := 0 }.wellFormed = false := by decide
theorem test_params_zero_chunk : { tiny with trimChunk := 0 }.wellFormed = false := by decide
theorem test_params_zero_init : { tiny with initWindow := 0 }.wellFormed = false := by decide
theorem test_params_zero_clock : { tiny with clkWin := 0 }.wellFormed = false := by decide
theorem test_params_zero_capacity : { tiny with maxActive := some 0 }.wellFormed = false := by decide
theorem test_params_bad_ratio : { tiny with longFactor := ⟨3, 0⟩ }.wellFormed = false := by decide
theorem test_other_factors : { tiny with nextFactor := ⟨1, 3⟩ }.defaultFactors = false := by decide
theorem test_short_delivery : tiny.deliveryWellFormed [0#8, 0#8, 0#8] = false := by decide
theorem test_text_without_start : trackTextWellFormed [0x31#8, 0x3F#8] = false := by decide
theorem test_text_without_end : trackTextWellFormed [0x3B#8, 0x31#8] = false := by decide
theorem test_text_foreign_character : trackTextWellFormed [0x3B#8, 0x41#8, 0x3F#8] = false := by decide
theorem test_text_only_a_sentinel : trackTextWellFormed [0x3F#8] = false := by decide
theorem test_text_empty_track : trackTextWellFormed [0x3B#8, 0x3F#8] = true := by decide

/-! ### One step per instruction: a data word in the body (R270 to R284), `ACC` from 0x0B -/

theorem test_body_digit0 : (after (exec .digit0 body)).map (fun t => (t.acc, Buffer.read t.out 0, t.outLen, t.decJ)) =
    some (0x0B#5, 0x30#8, 1, 2) := by decide
theorem test_body_digit1 : (after (exec .digit1 body)).map (fun t => (t.acc, Buffer.read t.out 0, t.outLen, t.decJ)) =
    some (0x0A#5, 0x31#8, 1, 2) := by decide
theorem test_body_digit2 : (after (exec .digit2 body)).map (fun t => (t.acc, Buffer.read t.out 0, t.outLen, t.decJ)) =
    some (0x09#5, 0x32#8, 1, 2) := by decide
theorem test_body_digit3 : (after (exec .digit3 body)).map (fun t => (t.acc, Buffer.read t.out 0, t.outLen, t.decJ)) =
    some (0x08#5, 0x33#8, 1, 2) := by decide
theorem test_body_digit4 : (after (exec .digit4 body)).map (fun t => (t.acc, Buffer.read t.out 0, t.outLen, t.decJ)) =
    some (0x0F#5, 0x34#8, 1, 2) := by decide
theorem test_body_digit5 : (after (exec .digit5 body)).map (fun t => (t.acc, Buffer.read t.out 0, t.outLen, t.decJ)) =
    some (0x0E#5, 0x35#8, 1, 2) := by decide
theorem test_body_digit6 : (after (exec .digit6 body)).map (fun t => (t.acc, Buffer.read t.out 0, t.outLen, t.decJ)) =
    some (0x0D#5, 0x36#8, 1, 2) := by decide
theorem test_body_digit7 : (after (exec .digit7 body)).map (fun t => (t.acc, Buffer.read t.out 0, t.outLen, t.decJ)) =
    some (0x0C#5, 0x37#8, 1, 2) := by decide
theorem test_body_digit8 : (after (exec .digit8 body)).map (fun t => (t.acc, Buffer.read t.out 0, t.outLen, t.decJ)) =
    some (0x03#5, 0x38#8, 1, 2) := by decide
theorem test_body_digit9 : (after (exec .digit9 body)).map (fun t => (t.acc, Buffer.read t.out 0, t.outLen, t.decJ)) =
    some (0x02#5, 0x39#8, 1, 2) := by decide
theorem test_body_colon : (after (exec .colon body)).map (fun t => (t.acc, Buffer.read t.out 0, t.outLen, t.decJ)) =
    some (0x01#5, 0x3A#8, 1, 2) := by decide
theorem test_body_startSentinel : (after (exec .startSentinel body)).map (fun t => (t.acc, Buffer.read t.out 0, t.outLen, t.decJ)) =
    some (0x00#5, 0x3B#8, 1, 2) := by decide
theorem test_body_less : (after (exec .less body)).map (fun t => (t.acc, Buffer.read t.out 0, t.outLen, t.decJ)) =
    some (0x07#5, 0x3C#8, 1, 2) := by decide
theorem test_body_fieldSep : (after (exec .fieldSep body)).map (fun t => (t.acc, Buffer.read t.out 0, t.outLen, t.decJ)) =
    some (0x06#5, 0x3D#8, 1, 2) := by decide
theorem test_body_greater : (after (exec .greater body)).map (fun t => (t.acc, Buffer.read t.out 0, t.outLen, t.decJ)) =
    some (0x05#5, 0x3E#8, 1, 2) := by decide
/-- `?` folds 1111: 1011 gives 0100, the parity bit 0; the LRC 0x04 follows: OK (R281's example). -/
theorem test_body_endSentinel : (after (exec .endSentinel { body with syms := Buffer.writeList [] 0 [0x0B#5, 0x1F#5, 0x04#5] })).map
    (fun t => (t.acc, t.resultCode, t.resultLen, t.phase)) = some (0x04#5, .ok, 0, .idle) := by decide
/-- The same with no symbol after `?` (R247, D26). -/
theorem test_body_endSentinel_without_lrc : (after (exec .endSentinel { body with symCnt := 2 })).map
    (fun t => (t.resultCode, t.done)) = some (.badLrc, true) := by decide
/-- R246's example: data 1010 gives the word 0x1A. -/
theorem test_force_parity : forceParity 0x0A#5 = 0x1A#5 := by decide

/-! ### One step per instruction: the words as candidates of the framer (R223, R224, R226) -/

theorem test_frame_digit0 : (after (coreStep tiny (candidateOf false false false false true))).map
    (fun t => (Buffer.read t.syms 0, t.symCnt, t.frK)) = some (0x10#5, 1, 5) := by decide
theorem test_frame_digit1 : (after (coreStep tiny (candidateOf true false false false false))).map
    (fun t => (Buffer.read t.syms 0, t.symCnt, t.frK)) = some (0x01#5, 1, 5) := by decide
theorem test_frame_digit2 : (after (coreStep tiny (candidateOf false true false false false))).map
    (fun t => (Buffer.read t.syms 0, t.symCnt, t.frK)) = some (0x02#5, 1, 5) := by decide
theorem test_frame_digit3 : (after (coreStep tiny (candidateOf true true false false true))).map
    (fun t => (Buffer.read t.syms 0, t.symCnt, t.frK)) = some (0x13#5, 1, 5) := by decide
theorem test_frame_digit4 : (after (coreStep tiny (candidateOf false false true false false))).map
    (fun t => (Buffer.read t.syms 0, t.symCnt, t.frK)) = some (0x04#5, 1, 5) := by decide
theorem test_frame_digit5 : (after (coreStep tiny (candidateOf true false true false true))).map
    (fun t => (Buffer.read t.syms 0, t.symCnt, t.frK)) = some (0x15#5, 1, 5) := by decide
theorem test_frame_digit6 : (after (coreStep tiny (candidateOf false true true false true))).map
    (fun t => (Buffer.read t.syms 0, t.symCnt, t.frK)) = some (0x16#5, 1, 5) := by decide
theorem test_frame_digit7 : (after (coreStep tiny (candidateOf true true true false false))).map
    (fun t => (Buffer.read t.syms 0, t.symCnt, t.frK)) = some (0x07#5, 1, 5) := by decide
theorem test_frame_digit8 : (after (coreStep tiny (candidateOf false false false true false))).map
    (fun t => (Buffer.read t.syms 0, t.symCnt, t.frK)) = some (0x08#5, 1, 5) := by decide
theorem test_frame_digit9 : (after (coreStep tiny (candidateOf true false false true true))).map
    (fun t => (Buffer.read t.syms 0, t.symCnt, t.frK)) = some (0x19#5, 1, 5) := by decide
theorem test_frame_colon : (after (coreStep tiny (candidateOf false true false true true))).map
    (fun t => (Buffer.read t.syms 0, t.symCnt, t.frK)) = some (0x1A#5, 1, 5) := by decide
theorem test_frame_startSentinel : (after (coreStep tiny (candidateOf true true false true false))).map
    (fun t => (Buffer.read t.syms 0, t.symCnt, t.frK)) = some (0x0B#5, 1, 5) := by decide
theorem test_frame_less : (after (coreStep tiny (candidateOf false false true true true))).map
    (fun t => (Buffer.read t.syms 0, t.symCnt, t.frK)) = some (0x1C#5, 1, 5) := by decide
theorem test_frame_fieldSep : (after (coreStep tiny (candidateOf true false true true false))).map
    (fun t => (Buffer.read t.syms 0, t.symCnt, t.frK)) = some (0x0D#5, 1, 5) := by decide
theorem test_frame_greater : (after (coreStep tiny (candidateOf false true true true false))).map
    (fun t => (Buffer.read t.syms 0, t.symCnt, t.frK)) = some (0x0E#5, 1, 5) := by decide
theorem test_frame_endSentinel : (after (coreStep tiny (candidateOf true true true true true))).map
    (fun t => (Buffer.read t.syms 0, t.symCnt, t.frK)) = some (0x1F#5, 1, 5) := by decide
theorem test_frame_invalid00 : (after (coreStep tiny (candidateOf false false false false false))).map (fun t => (t.phase, t.symCnt)) = some (.decode, 0) := by decide
theorem test_frame_invalid03 : (after (coreStep tiny (candidateOf true true false false false))).map (fun t => (t.phase, t.symCnt)) = some (.decode, 0) := by decide
theorem test_frame_invalid05 : (after (coreStep tiny (candidateOf true false true false false))).map (fun t => (t.phase, t.symCnt)) = some (.decode, 0) := by decide
theorem test_frame_invalid06 : (after (coreStep tiny (candidateOf false true true false false))).map (fun t => (t.phase, t.symCnt)) = some (.decode, 0) := by decide
theorem test_frame_invalid09 : (after (coreStep tiny (candidateOf true false false true false))).map (fun t => (t.phase, t.symCnt)) = some (.decode, 0) := by decide
theorem test_frame_invalid0A : (after (coreStep tiny (candidateOf false true false true false))).map (fun t => (t.phase, t.symCnt)) = some (.decode, 0) := by decide
theorem test_frame_invalid0C : (after (coreStep tiny (candidateOf false false true true false))).map (fun t => (t.phase, t.symCnt)) = some (.decode, 0) := by decide
theorem test_frame_invalid0F : (after (coreStep tiny (candidateOf true true true true false))).map (fun t => (t.phase, t.symCnt)) = some (.decode, 0) := by decide
theorem test_frame_invalid11 : (after (coreStep tiny (candidateOf true false false false true))).map (fun t => (t.phase, t.symCnt)) = some (.decode, 0) := by decide
theorem test_frame_invalid12 : (after (coreStep tiny (candidateOf false true false false true))).map (fun t => (t.phase, t.symCnt)) = some (.decode, 0) := by decide
theorem test_frame_invalid14 : (after (coreStep tiny (candidateOf false false true false true))).map (fun t => (t.phase, t.symCnt)) = some (.decode, 0) := by decide
theorem test_frame_invalid17 : (after (coreStep tiny (candidateOf true true true false true))).map (fun t => (t.phase, t.symCnt)) = some (.decode, 0) := by decide
theorem test_frame_invalid18 : (after (coreStep tiny (candidateOf false false false true true))).map (fun t => (t.phase, t.symCnt)) = some (.decode, 0) := by decide
theorem test_frame_invalid1B : (after (coreStep tiny (candidateOf true true false true true))).map (fun t => (t.phase, t.symCnt)) = some (.decode, 0) := by decide
theorem test_frame_invalid1D : (after (coreStep tiny (candidateOf true false true true true))).map (fun t => (t.phase, t.symCnt)) = some (.decode, 0) := by decide
theorem test_frame_invalid1E : (after (coreStep tiny (candidateOf false true true true true))).map (fun t => (t.phase, t.symCnt)) = some (.decode, 0) := by decide

/-! ### One step per instruction: the commands (the examples of R131 to R135) -/

theorem test_start_idle : (after (exec .start { State.reset with done := true })).map State.status = some 0x0011#16 := by decide
theorem test_start_ignored : exec .start (base .scan false) = .next (base .scan false) := rfl
theorem test_cancel_scan : (after (exec .cancel (base .scan false))).map State.cancelReq = some true := by decide
theorem test_cancel_idle : exec .cancel State.reset = .next State.reset := rfl
theorem test_nop : exec .nop waiting = .next waiting := rfl
theorem test_reserved : exec .reservedCmd (base .prime false) = .next (base .prime false) := rfl

/-! ### The stages, from the examples of their rules -/

/-- R76: byte 2k is the low one; 0xFFFE is −2. -/
theorem test_samples_little_endian : (samplesOfBytes [0x34#8, 0x12#8, 0xFE#8, 0xFF#8]).map BitVec.toInt = [0x1234, -2] := by decide
/-- R152: a negative mean rounds toward −∞. -/
theorem test_floor_mean : floorMean [-1, 0] = -1 ∧ floorMean [0, 8, 0, 0, -2, 6] = 2 := by decide
/-- R156: power 7 with `SW` = 8 is idle, power 8 is active. -/
theorem test_active_boundary : isActive Config.params 7 8 = false ∧ isActive Config.params 8 8 = true := by decide
/-- R160: 16·3 = 48 is below 56 and 16·4 is not. -/
theorem test_quiet_boundary : isQuietChunk Config.params 3 8 = true ∧ isQuietChunk Config.params 4 8 = false := by decide
/-- R163's example. -/
theorem test_final_bias : finalBias [0, 8, 0, 0, -2, 6] = [-2, 6, -2, -2, -4, 4] := by decide
/-- R203: 240 > 240 is false, so 15 is short and 16 long. -/
theorem test_long_boundary : isLong Config.params 15 80 = false ∧ isLong Config.params 16 80 = true := by decide
/-- R221's example: `BITS` = 00011. -/
theorem test_run_out : (after (coreStep tiny { base .frame false with bits := Buffer.writeList [] 0 [false, false, false, true, true], bitCnt := 5 })).map
    State.frK = some 3 := by decide
/-- R243's example: neither 0x01 nor rev(0x1F) has the character `;`. -/
theorem test_no_start_sentinel : (after (coreStep tiny (symbols [0x01#5, 0x0D#5, 0x02#5, 0x1F#5]))).map
    (fun t => (t.resultCode, t.dir)) = some (.missingStartSentinel, true) := by decide
/-- R242: `;` first. -/
theorem test_forward : (after (coreStep tiny (symbols [0x0B#5, 0x1F#5, 0x04#5]))).map
    (fun t => (t.dir, t.acc, t.decJ)) = some (false, 0x0B#5, 1) := by decide
/-- R243: a reversed swipe, its last word 0x1A. -/
theorem test_reversed : (after (coreStep tiny (symbols [0x04#5, 0x1F#5, 0x1A#5]))).map
    (fun t => (t.dir, t.acc, t.decJ)) = some (true, 0x0B#5, 1) := by decide
/-- `;9:?`, whose LRC has parity bit 0, reversed (log 23; reckoned by hand from R221 to R223): after two zeros three
odd-parity words, then an even-parity one. -/
theorem test_out_of_phase_framing :
    encodeText (trackText [0x39#8, 0x3A#8]) = [0x0B#5, 0x19#5, 0x1A#5, 0x1F#5, 0x07#5] ∧
    ([2, 7, 12, 17].map fun k => candidate { base .frame true with
      bits := Buffer.writeList [] 0 (encodeBits 0 0 (encodeText (trackText [0x39#8, 0x3A#8]))).reverse, frK := k }) =
      [0x1F#5, 0x1F#5, 0x1A#5, 0x14#5] := by decide
/-- The decoder's entry then finds `;` in the reversed direction (R243, log 23). -/
theorem test_out_of_phase_start : (after (coreStep tiny (symbols [0x1F#5, 0x1F#5, 0x1A#5]))).map
    (fun t => (t.dir, t.acc, t.decJ)) = some (true, 0x0B#5, 1) := by decide
/-- A read of `OUT` inside the result gives the character there. -/
theorem test_read_out : ({ State.reset with done := true, resultLen := 1, out := [(0, 0x31#8)] } : State).hostOut 0 = 0x31#8 := by decide
/-- A write of what an unlisted index reads as removes the element, so equal buffers are equal data (log 2). -/
theorem test_canonical_write : Buffer.write [(1, 7), (3, 9)] 3 0 = [(1, 7)] := by decide

/-! ### States that meet the hypotheses of the statements, clause by clause -/

theorem met_CodingIsExact : decode .symbol 0x1F#8 = .ok .endSentinel ∧ 32 ≤ (0x20#8).toNat ∧ 4 ≤ (0x04#8).toNat :=
  ⟨rfl, by decide, by decide⟩
theorem met_OneParityBitIsValid : (base .frame true).phase = .frame ∧ (base .frame true).entered = true ∧
    ∃ t, exec (decodeSymbol 0x0B#5) (base .frame true) = .next t := ⟨rfl, rfl, _, rfl⟩
theorem met_ReversalTurnsTheWordAround : ({ body with dir := true } : State).dir = true := rfl
theorem met_StepRunsTheCommand : ({ waiting with inputs := [.command 0b10#2] } : State).inputs = .command 0b10#2 :: [] := rfl
theorem met_StepRunsTheSymbolWord_silent : (symbols [0x0B#5]).inputs = [] ∧ fetchWord (symbols [0x0B#5]) = some 0x0B#5 := by decide
theorem met_StepRunsTheSymbolWord_move : ({ symbols [0x0B#5] with inputs := [.core, .core] } : State).inputs = .core :: [.core] ∧
    fetchWord { symbols [0x0B#5] with inputs := [.core] } = some 0x0B#5 := by decide
theorem met_WordTheCoreReads_frame : (candidateOf true true false true false).waitBlk = false ∧
    (candidateOf true true false true false).frK + 5 ≤ (candidateOf true true false true false).bitCnt := by decide
theorem met_WordTheCoreReads_entry : (symbols [0x0B#5]).phase = .decode ∧ (symbols [0x0B#5]).entered = false ∧
    0 < (symbols [0x0B#5]).symCnt := by decide
theorem met_WordTheCoreReads_body : body.entered = true ∧ ({ body with decJ := 2 } : State).decJ < body.symCnt ∧ body.dir = false := by decide
theorem met_WordTheCoreReads_reversed : ({ body with dir := true, decJ := 2 } : State).decJ < body.symCnt := by decide
theorem met_StartIsAcceptedOnlyInIdle : State.reset.phase = .idle ∧ (base .prime false).phase ≠ .idle := by decide
theorem met_StartKeepsTheRest : State.reset.phase = .idle ∧ ∃ t, exec .start State.reset = .next t := ⟨rfl, _, rfl⟩
theorem met_CancelNopAndReservedCommands : (base .prime false).phase = .prime ∧ (base .scan false).phase = .scan ∧
    (base .detect false).phase ≠ .prime ∧ (base .detect false).phase ≠ .scan := by decide
/-- The hypotheses inside `TakenAsData` (DigitWords, OtherDataWords, StartSentinelWord, EndSentinelWord). -/
theorem met_TakenAsData : body.phase = .decode ∧ body.entered = true := by decide
/-- The hypotheses inside `ReversesAtEntry`, with `;` at the reversed start and without it. -/
theorem met_ReversesAtEntry : (symbols [0x01#5, 0x1A#5]).phase = .decode ∧ (symbols [0x01#5, 0x1A#5]).entered = false ∧
    charOf (rev (Buffer.read (symbols [0x01#5, 0x1A#5]).syms 1)) = startChar ∧
    charOf (rev (Buffer.read (symbols [0x01#5]).syms 0)) ≠ startChar ∧ 0 < (symbols [0x01#5]).symCnt := by decide
theorem met_StartSentinelWord_reversed : popcount 0x01#5 % 2 = 1 ∧ charOf 0x01#5 ≠ startChar ∧
    0 < (symbols [0x01#5, 0x1A#5]).symCnt ∧ Buffer.read (symbols [0x01#5, 0x1A#5]).syms ((symbols [0x01#5, 0x1A#5]).symCnt - 1) = 0x1A#5 := by decide
theorem met_EndSentinelWord_ok : body.decJ + 1 < body.symCnt := by decide
theorem met_EndSentinelWord_no_lrc : ({ body with symCnt := 2 } : State).symCnt ≤ body.decJ + 1 := by decide
theorem met_EndSentinelWord_other_lrc :
    decodedSym { body with syms := Buffer.writeList [] 0 [0x0B#5, 0x1F#5, 0x15#5] } 2 ≠ 0x04#5 := by decide
theorem met_WordsFramed : (base .frame true).phase = .frame ∧ (base .frame true).entered = true := by decide
theorem met_WordsNoRunMeets : popcount 0x00#5 % 2 = 0 ∧ (base .decode false).entered = false ∧ body.entered = true ∧
    (base .frame false).entered = false ∧ (base .frame false).phase ≠ .decode ∧ State.reset.phase ≠ .frame := by decide
theorem met_CancelIsCheckedFirst : (base .prime false).waitBlk = false ∧ (base .prime false).blkHere = false ∧
    ({ base .scan false with cancelReq := true } : State).cancelReq = true ∧ (base .prime false).cancelReq = false := by decide
theorem met_DeliveryFillsTheBlock : waiting.waitBlk = true ∧ State.reset.phase = .idle ∧
    ({ waiting with inputs := [.port (.deliver [1#8, 0#8, 2#8, 0#8])] } : State).inputs =
      .port (.deliver [1#8, 0#8, 2#8, 0#8]) :: [] ∧ [1#8, 0#8, 2#8, 0#8].length = 2 * tiny.blockN := by decide
theorem met_OnlyContractBreachesAreRefused :
    stepWith tiny { State.reset with inputs := [.port (.deliver [])] } = .refused .deliveryWithoutRequest ∧
    stepWith tiny { waiting with inputs := [.port (.deliver [])] } = .refused .deliveryLength := ⟨rfl, rfl⟩
/-- `L_MAX` = 12 takes four bits (R24): the port `OUT_ADDR` carries 15 and not 16. With an infinite capacity it has no bound. -/
theorem test_index_width : captureMax tiny = some 12 ∧ indexWidth tiny = some 4 ∧ indexFits tiny 15 = true ∧
    indexFits tiny 16 = false ∧ indexFits Config.params 16 = true := by decide
theorem met_OnlyContractBreachesAreRefused_address : indexWidth tiny = some 4 ∧ 2 ^ 4 ≤ 16 ∧
    stepWith tiny { State.reset with inputs := [.port (.readOut 16)] } = .refused .addressWidth := ⟨by decide, by decide, rfl⟩
theorem met_PrimingBlock : (holding .prime).waitBlk = false ∧ (holding .prime).blkHere = true ∧
    (holding .prime).primeCnt < tiny.powWin ∧ ({ holding .prime with primeCnt := 1 } : State).primeCnt + 1 = tiny.powWin := by decide
theorem met_ActiveBlock : isActive tiny (ptp (rawBlock tiny (holding .scan))) (holding .scan).pwin.sum = true ∧
    tiny.maxActive ≠ some (holding .scan).actCnt ∧ tiny.maxActive = some ({ holding .scan with actCnt := 4 } : State).actCnt := by decide
theorem met_IdleBlocks : isActive tiny (ptp (rawBlock tiny { holding .scan with blk := [] })) (holding .scan).pwin.sum = false ∧
    ({ holding .scan with actCnt := 1 } : State).actCnt ≤ 1 ∧ 2 ≤ ({ holding .scan with actCnt := 2 } : State).actCnt := by decide
theorem met_FinalCorrectionCentresTheWaveform : ([3] : List Int) ≠ [] := by decide
theorem met_DetectorEntry : (base .detect false).waveLen = 0 ∧ 0 < ({ base .detect false with waveLen := 1 } : State).waveLen := by decide

/-- Inside DETECT with the samples 0, 10, −6, 0 and `THR10` = 8, at sample `j`. -/
def detecting (j : Nat) : State :=
  { base .detect true with wave := Buffer.writeList [] 0 [0, 10, -6, 0], waveLen := 4, thr := 8, detJ := j }

theorem met_DetectorSample_extends : ((detecting 1).thr : Int) < (5 * 2 : Nat) * (1 * Buffer.read (detecting 1).wave 1) ∧
    Buffer.read (detecting 1).wave 1 ≤ ({ detecting 1 with peak := 10 } : State).peak ∧ (detecting 1).detJ + 1 < (detecting 1).waveLen := by decide
theorem met_DetectorSample_opens : ((detecting 1).peak : Int) < Buffer.read (detecting 1).wave 1 := by decide
theorem met_DetectorSample_ends : (5 * 2 : Nat) * (1 * Buffer.read (detecting 2).wave 2) ≤ ((detecting 2).thr : Int) ∧
    ({ detecting 2 with peak := 10, peakIdx := 1 } : State).peak ≠ 0 ∧ (detecting 2).detJ + 1 < (detecting 2).waveLen ∧
    ({ detecting 2 with havePrev := true, prevIdx := 1, peakIdx := 1 } : State).prevIdx ≤ 1 := by decide
/-- The boundary 10·v = `THR10`: at or below, with no run open and with one. -/
theorem met_DetectorSample_boundary : (5 * 2 : Nat) * (1 * Buffer.read (detecting 1).wave 1) = (({ detecting 1 with thr := 100 } : State).thr : Int) ∧
    (detecting 1).peak = 0 ∧ ({ detecting 1 with thr := 100, peak := 11 } : State).peak ≠ 0 ∧ (detecting 1).havePrev = false := by decide
theorem test_strict_threshold : (after (coreStep Config.params { detecting 1 with thr := 100 })).map (fun t => (t.peak, t.detJ)) = some (0, 2) := by decide
theorem met_DetectorExit : (detecting 3).detJ + 1 = (detecting 3).waveLen ∧
    ∃ t, coreStep tiny { detecting 3 with waveLen := 5 } = .next t := ⟨by decide, _, rfl⟩
theorem met_LoudInitialWindowHidesEveryPeak :
    tiny.defaultFactors = true ∧ AtStage .detect { base .detect false with wave := [(0, 10), (1, -10)], waveLen := 2 } ∧
      ∀ k < 2, -10 ≤ Buffer.read ([(0, 10), (1, -10)] : Buffer Int) k ∧ Buffer.read ([(0, 10), (1, -10)] : Buffer Int) k ≤ 10 :=
  ⟨by decide, ⟨rfl, rfl, rfl, rfl⟩, by decide⟩
theorem met_RecovererEntry : (base .recover false).ivlCnt < tiny.discard + tiny.clkWin ∧
    tiny.discard + tiny.clkWin ≤ ({ base .recover false with ivlCnt := 1 } : State).ivlCnt := by decide

/-- Inside RECOVER with one seed interval 20 and the intervals given. -/
def recovering (xs : List Nat) : State :=
  { base .recover true with ivl := Buffer.writeList [] 0 (20 :: xs), ivlCnt := xs.length + 1, cwin := [20] }

theorem met_RecovererClassification_end : (recovering [20]).ivlCnt < tiny.discard + tiny.clkWin + (recovering [20]).recI + 2 := by decide
theorem met_RecovererClassification_long : tiny.discard + tiny.clkWin + (recovering [16, 20]).recI + 2 ≤ (recovering [16, 20]).ivlCnt ∧
    isLong tiny (Buffer.read (recovering [16, 20]).ivl 1) (recovering [16, 20]).cwin.sum = true := by decide
theorem met_RecovererClassification_short : isLong tiny (Buffer.read (recovering [15, 20]).ivl 1) (recovering [15, 20]).cwin.sum = false := by decide
theorem met_SteadyClock : SteadyClock Config.params ∧ SteadyClock tiny ∧ 0 < tiny.clkWin := by
  unfold SteadyClock; decide
theorem met_SteadyIntervalsRecoverTheirBits : tiny.discard + tiny.clkWin ≤ 2 ∧
    AtRecover { base .recover false with ivl := Buffer.writeList [] 0 (encodeIntervals 10 2 7 [true]), ivlCnt := 5 }
      (encodeIntervals 10 2 7 [true]) := ⟨by decide, ⟨rfl, rfl, rfl, rfl⟩, rfl, by decide⟩
theorem met_FramerEntryAndExit : (base .frame false).bitCnt = 0 ∧ 0 < ({ base .frame false with bitCnt := 1 } : State).bitCnt ∧
    ({ base .frame true with bitCnt := 4 } : State).bitCnt < (base .frame true).frK + 5 := by decide
theorem met_BitsFrameToTheirWords : (∀ x ∈ [0x0B#5], popcount x % 2 = 1) ∧ (0x0B#5).getLsbD 0 = true ∧
    AtFrame { base .frame false with bits := Buffer.writeList [] 0 (encodeBits 1 1 [0x0B#5]), bitCnt := 7 } (encodeBits 1 1 [0x0B#5]) :=
  ⟨by decide, by decide, ⟨rfl, rfl, rfl, rfl⟩, rfl, by decide⟩
theorem met_DecoderRunsOutOfSymbols : (base .decode false).symCnt = 0 ∧ ({ body with decJ := 3 } : State).symCnt ≤ 3 := by decide

/-- The data text `1`, whose LRC is 0x15: its parity bit is 1 and it is not 0x1A. -/
theorem met_EncodedText : DataText [0x31#8] ∧ encodeText (trackText [0x31#8]) = [0x0B#5, 0x01#5, 0x1F#5, 0x15#5] ∧
    (lrcOf [0x31#8]).getLsbD 4 = true ∧ lrcOf [0x31#8] ≠ 0x1A#5 := ⟨by intro c hc; simp at hc; subst hc; decide, by decide, by decide, by decide⟩
theorem met_EncodedTextDecodes :
    AtDecode (symbols [0x0B#5, 0x01#5, 0x1F#5, 0x15#5, 0x00#5]) (encodeText (trackText [0x31#8]) ++ [0x00#5]) :=
  ⟨⟨rfl, rfl, rfl, rfl⟩, rfl, by decide⟩
/-- The data text of no characters, at a nominal cell of 10. -/
theorem met_EncodedSwipeDecodes :
    AtRecover
      { base .recover false with
        ivl := Buffer.writeList [] 0 (encodeIntervals 10 1 7 (encodeBits 0 0 (encodeText (trackText []))))
        ivlCnt := (encodeIntervals 10 1 7 (encodeBits 0 0 (encodeText (trackText [])))).length }
      (encodeIntervals 10 1 7 (encodeBits 0 0 (encodeText (trackText [])))) := ⟨⟨rfl, rfl, rfl, rfl⟩, rfl, by decide⟩
theorem met_SymbolReversal : AtDecode (symbols [0x15#5, 0x1F#5, 0x10#5, 0x1A#5]) ((encodeText (trackText [0x31#8])).reverse.map rev) :=
  ⟨⟨rfl, rfl, rfl, rfl⟩, rfl, by decide⟩
theorem met_BitReversal :
    AtFrame { base .frame false with bits := Buffer.writeList [] 0 (encodeBits 0 1 (encodeText (trackText [0x31#8]))).reverse, bitCnt := 21 }
      (encodeBits 0 1 (encodeText (trackText [0x31#8]))).reverse := ⟨⟨rfl, rfl, rfl, rfl⟩, rfl, by decide⟩
theorem met_FlippedDataBit : (encodeText (trackText [0x31#8]))[0 + 1]? = some 0x01#5 ∧ charOf (0x01#5 ^^^ (1#5 <<< 0)) ≠ endChar ∧
    AtDecode (symbols [0x0B#5, 0x00#5, 0x1F#5, 0x15#5])
      ((encodeText (trackText [0x31#8])).set (0 + 1) (0x01#5 ^^^ (1#5 <<< 0))) := ⟨by decide, by decide, ⟨rfl, rfl, rfl, rfl⟩, rfl, by decide⟩
/-- `;>4?` with the lowest data bit of `>` flipped, which makes it `?`: the state the refutation rests on. -/
theorem met_AnyFlippedDataBit : (encodeText (trackText [0x3E#8, 0x34#8]))[0 + 1]? = some 0x0E#5 ∧
    AtDecode (symbols [0x0B#5, 0x0F#5, 0x04#5, 0x1F#5, 0x0E#5])
      ((encodeText (trackText [0x3E#8, 0x34#8])).set (0 + 1) (0x0E#5 ^^^ (1#5 <<< 0))) := ⟨by decide, ⟨rfl, rfl, rfl, rfl⟩, rfl, by decide⟩
theorem met_OutcomesHaveTheirCauses : ∃ t, stepWith tiny (base .frame false) = .next t ∧ (base .frame false).done = false ∧ t.done = true :=
  ⟨_, rfl, rfl, rfl⟩
theorem met_PhasesAdvanceInOrder : ∃ t, stepWith tiny (base .recover false) = .next t := ⟨_, rfl⟩
theorem met_HandedOffInvocationsEnd : AtStage .detect (base .detect false) := ⟨rfl, rfl, rfl, rfl⟩
/-- Two idle states that differ in what an earlier invocation left. -/
theorem met_NothingCarriesOver :
    ({ State.resetFor tiny with inputs := [.command 0b01#2], bias := 7, done := true } : State).pwin.length = tiny.powWin ∧
    ({ State.resetFor tiny with inputs := [.command 0b01#2] } : State).inputs = .command 0b01#2 :: [] ∧
    ({ State.resetFor tiny with inputs := [.command 0b01#2] } : State).pwin.length = tiny.powWin ∧ tiny.wellFormed = true := by decide
theorem met_SilenceIsScannedForEver :
    ({ base .scan false with inputs := (List.replicate 1 [Move.core, .port (.deliver (List.replicate 4 0#8)), .core]).flatten } : State).inputs =
      (List.replicate 1 [Move.core, .port (.deliver (List.replicate (2 * tiny.blockN) 0#8)), .core]).flatten ∧
    (base .scan false).actCnt ≤ 1 ∧ (base .scan false).cancelReq = false := by decide
theorem met_HostReadsChangeNothing :
    ({ State.reset with inputs := [.port .readStatus] } : State).inputs = .port .readStatus :: [] ∧ State.reset.resultCode ≠ .reserved ∧
    ({ State.reset with inputs := [.port .readLen] } : State).inputs = .port .readLen :: [] ∧
    ({ State.reset with inputs := [.port (.readOut 0)], done := true, resultLen := 1 } : State).inputs = .port (.readOut 0) :: [] ∧ indexWidth tiny = some 4 ∧
    0 < 2 ^ 4 := by decide
theorem met_ResetLeavesAnIdleCore : ({ waiting with inputs := [.port .reset] } : State).inputs = .port .reset :: [] := rfl

/-! The invariants hold in a state inside DECODE, and a step goes on from it. -/

/-- Inside DECODE after `;`, with everything the earlier stages left. -/
def midDecode : State :=
  { base .decode true with
    pwin := [2, 2], primeCnt := 2, actCnt := 4, waveLen := 12, ivlCnt := 5, ivl := Buffer.writeList [] 0 [2, 2, 2, 2, 2]
    bitCnt := 5, symCnt := 1, syms := [(0, 0x0B#5)], acc := 0x0B#5, decJ := 1 }

theorem met_ControlOk : ControlOk midDecode ∧ ∃ t, stepWith tiny midDecode = .next t :=
  ⟨by constructor <;> decide, _, rfl⟩
theorem met_RangesOk : RangesOk tiny midDecode ∧ tiny.maxActive = some 4 := by
  refine ⟨?_, rfl⟩
  constructor <;> simp [midDecode, base, State.reset, State.resetFor, tiny, unwritten]
theorem met_WidthsOk : WidthsOk tiny midDecode := by
  intro n hn
  cases hn
  constructor
  case intervals =>
    intro k
    show Buffer.read (Buffer.writeList ([] : Buffer Nat) 0 [2, 2, 2, 2, 2]) k ≤ 12
    by_cases hk : k < 5
    · exact (by decide : ∀ k < 5, Buffer.read (Buffer.writeList ([] : Buffer Nat) 0 [2, 2, 2, 2, 2]) k ≤ 12) k hk
    · rw [Buffer.read_writeList_outside _ _ _ _ (.inr (by simpa using Nat.le_of_not_lt hk))]
      exact Nat.zero_le _
  all_goals decide
theorem met_IntervalsOk : IntervalsOk midDecode := by unfold IntervalsOk; decide
theorem met_SymbolsOk : SymbolsOk midDecode := by unfold SymbolsOk; decide
theorem met_StageOk : StageOk tiny midDecode where
  window_length := rfl
  priming := by decide
  primed := fun _ => rfl
  event_size := fun _ => by decide
  detecting := fun h => absurd h (by decide)
  detected := fun _ => ⟨met_IntervalsOk, by decide⟩
  recovering := by decide
  recovered := by decide
  framing := fun h => absurd h (by decide)
  framed := fun _ => ⟨by decide, met_SymbolsOk⟩
  decoding := by decide
  reported := by decide
/-- The hypotheses of the invariants' step statements, all together. -/
theorem met_BuffersStayWithinCapacity : tiny.wellFormed = true ∧ tiny.maxActive = some 4 ∧ ControlOk midDecode ∧ RangesOk tiny midDecode ∧
    WidthsOk tiny midDecode ∧ StageOk tiny midDecode ∧ ∃ t, stepWith tiny midDecode = .next t :=
  ⟨test_tiny_params_wellFormed, rfl, met_ControlOk.1, met_RangesOk.1, met_WidthsOk, met_StageOk, _, rfl⟩
/-- A latched cancel stands past the segmenter (R133). -/
theorem met_ControlOk_cancel : ControlOk { midDecode with cancelReq := true } := by constructor <;> decide
theorem met_StepsKeepCanonicalBuffers : Memory.wf midDecode = true ∧ Memory.wf State.reset = true := by decide

/-! ### Stops of the model (log 11, log 12) -/

theorem test_reserved_phase : stopped (coreStep tiny (base .reserved false)) = some .reservedPhase := rfl
theorem test_word_without_reader : stopped (exec .digit1 State.reset) = some .symbolNotRead := rfl
theorem test_negative_interval :
    stopped (coreStep tiny { detecting 2 with peak := 10, havePrev := true, prevIdx := 3 }) = some .negativeInterval := by decide

end Sys2Proof.Machine.Tests
end

section
/-! PROOFS. The layout of the host's view `STATUS` (R38): one lemma says where each bit comes from, and every field of
the view reads off it, so that later proofs need not take the concatenation apart again. -/

namespace Sys2Proof.Machine

/-! ### The bits of `STATUS` -/

theorem State.busy_eq_true_iff (s : State) : s.busy = true ↔ s.phase ≠ .idle := by
  simp [State.busy]

/-- The fields of R38 from the bottom up, each ending where the next begins; a bit past the 3 bits of `RESULT_CODE`
reads 0. -/
theorem State.getLsbD_status (s : State) (i : Nat) :
    s.status.getLsbD i =
      if i < 1 then s.busy
      else if i < 2 then s.done
      else if i < 3 then s.cancelReq
      else if i < 4 then s.waitBlk
      else if i < 7 then (phaseCode s.phase).getLsbD (i - 4)
      else if i < 8 then false
      else (resultBits s.resultCode).getLsbD (i - 8) := by
  obtain hin | hpast := Nat.lt_or_ge i 16
  · unfold State.status
    simp only [BitVec.getLsbD_append]
    interval_cases i <;> simp
  · have hcode : (resultBits s.resultCode).getLsbD (i - 8) = false := BitVec.getLsbD_of_ge _ _ (by omega)
    simp (disch := omega) only [if_neg, hcode, BitVec.getLsbD_of_ge]

/-! ### The fields of several bits -/

/-- Bits 6:4 are `PHASE`. -/
@[simp] theorem State.status_phase (s : State) : s.status.extractLsb' 4 3 = phaseCode s.phase := by
  ext i hi
  rw [BitVec.getElem_extractLsb', s.getLsbD_status]
  interval_cases i <;> simp

/-- Bits 10:8 are `RESULT_CODE`. -/
@[simp] theorem State.status_resultCode (s : State) :
    s.status.extractLsb' 8 3 = resultBits s.resultCode := by
  ext i hi
  rw [BitVec.getElem_extractLsb', s.getLsbD_status]
  interval_cases i <;> simp

/-- Bits 15:11 read 0. -/
@[simp] theorem State.status_high (s : State) : s.status.extractLsb' 11 5 = 0#5 := by
  ext i hi
  rw [BitVec.getElem_extractLsb', s.getLsbD_status]
  interval_cases i <;> simp

/-! ### The code that a host reads for a given phase or outcome (R31, R112) -/

theorem State.status_phase_of_eq (s : State) (p : Phase) (h : s.phase = p) :
    s.status.extractLsb' 4 3 = phaseCode p :=
  h ▸ s.status_phase

theorem State.status_resultCode_of_eq (s : State) (c : ResultCode) (h : s.resultCode = c) :
    s.status.extractLsb' 8 3 = resultBits c :=
  h ▸ s.status_resultCode

/-! ### The word at reset -/

theorem State.status_reset : State.reset.status = 0x0000#16 := by
  decide

/-- Settles O51: each bit is `State.getLsbD_status` at its index, each field its own lemma, and the clauses on the codes
are the two fields' lemmas at one phase or one outcome each. -/
theorem statusLayout : Obligations.StatusLayout := by
  refine ⟨State.status_reset, fun s => ⟨?busy, s.getLsbD_status 1, s.getLsbD_status 2, s.getLsbD_status 3,
    s.status_phase, s.getLsbD_status 7, s.status_resultCode, s.status_high, ?codes⟩⟩
  case busy => exact s.getLsbD_status 0 ▸ s.busy_eq_true_iff
  case codes =>
    exact ⟨s.status_phase_of_eq .idle, s.status_phase_of_eq .prime, s.status_phase_of_eq .scan, s.status_phase_of_eq .detect,
      s.status_phase_of_eq .recover, s.status_phase_of_eq .frame, s.status_phase_of_eq .decode, s.status_phase_of_eq .reserved,
      s.status_resultCode_of_eq .ok, s.status_resultCode_of_eq .emptyCapture,
      s.status_resultCode_of_eq .missingStartSentinel, s.status_resultCode_of_eq .missingEndSentinel,
      s.status_resultCode_of_eq .badLrc, s.status_resultCode_of_eq .cancelled,
      s.status_resultCode_of_eq .captureOverflow, s.status_resultCode_of_eq .reserved⟩

end Sys2Proof.Machine
end

section
/-! PROOFS. Parity and reversal of a symbol word (R104, R108): how `popcount` sees a parity bit put above the data bits,
what the two verdicts of the framer do to `SYM_CNT`, and `rev` bit by bit. -/

namespace Sys2Proof.Machine

/-! ### Parity of a word -/

theorem oddParity_eq_true_iff (w : Symbol) : oddParity w = true ↔ popcount w % 2 = 1 := by
  simp [oddParity]

/-- The tables of R109 and R126 against the parity of the words they list. -/
theorem mayStandInSyms_decodeSymbol (w : Symbol) : (decodeSymbol w).mayStandInSyms = oddParity w := by
  revert w
  decide

theorem popcount_parityBit_append (p : Bool) (v : BitVec 4) :
    popcount (BitVec.ofBool p ++ v) = popcount (v.setWidth 5) + p.toNat := by
  simp only [popcount, BitVec.getLsbD_append]
  simp

/-- Of the two parity bits, one makes the count odd. -/
theorem popcount_parityBit_append_odd_iff (p : Bool) (v : BitVec 4) :
    popcount (BitVec.ofBool p ++ v) % 2 = 1 ↔ p.toNat = 1 - popcount (v.setWidth 5) % 2 := by
  have hp : p.toNat ≤ 1 := Bool.toNat_le p
  rw [popcount_parityBit_append]
  omega

/-! ### A word as a candidate of the framer -/

theorem exec_symbolWord_framer (w : Symbol) (s : State) (hp : s.phase = .frame) (he : s.entered = true) :
    exec (decodeSymbol w) s = .next (s.frameCandidate w) := by
  simp [exec_symbolWord, symbolReader, hp, he]

/-- Only an accepted candidate is counted: the other verdict hands off with `SYM_CNT` as it stands. -/
theorem State.frameCandidate_counts_iff (w : Symbol) (s : State) :
    (s.frameCandidate w).symCnt = s.symCnt + 1 ↔ oddParity w = true := by
  cases h : oddParity w with
  | true => simp [s.frameCandidate_odd w h, State.acceptSymbol]
  | false => simp [s.frameCandidate_even w h]

/-- Settles O3: the tables' clause is `mayStandInSyms_decodeSymbol`, the framer's `State.frameCandidate_counts_iff`, the
parity bit's `popcount_parityBit_append_odd_iff`; the sixteen words are counted. -/
theorem oneParityBitIsValid : Obligations.OneParityBitIsValid := by
  refine ⟨fun w => ?tables, fun w s t hp he hx => ?framer, fun v p => popcount_parityBit_append_odd_iff p v, by decide⟩
  case tables => rw [mayStandInSyms_decodeSymbol, oddParity_eq_true_iff]
  case framer =>
    obtain rfl : s.frameCandidate w = t := by simpa [exec_symbolWord_framer w s hp he] using hx
    rw [State.frameCandidate_counts_iff, oddParity_eq_true_iff]

/-! ### Reversal -/

theorem getLsbD_rev (w : Symbol) (k : Nat) (hk : k < 5) : (rev w).getLsbD k = w.getLsbD (4 - k) := by
  simp only [rev, BitVec.getLsbD_append]
  interval_cases k <;> simp

/-- The five bits are summed in the opposite order. -/
@[simp] theorem popcount_rev (w : Symbol) : popcount (rev w) = popcount w := by
  simp (disch := omega) only [popcount, getLsbD_rev, Nat.reduceSub]
  omega

@[simp] theorem rev_rev (w : Symbol) : rev (rev w) = w := by
  refine BitVec.eq_of_getLsbD_eq fun k hk => ?_
  rw [getLsbD_rev _ k hk, getLsbD_rev w (4 - k) (by omega), Nat.sub_sub_self (by omega)]

theorem decodedSym_reversed (s : State) (i : Nat) (hd : s.dir = true) :
    decodedSym s i = rev (Buffer.read s.syms (s.symCnt - 1 - i)) := by
  simp [decodedSym, hd]

/-- Settles O4: bit k by `getLsbD_rev`, from which the count and the second reversal follow, and the decoder's view
through `DIR`. -/
theorem reversalTurnsTheWordAround : Obligations.ReversalTurnsTheWordAround :=
  ⟨fun w => ⟨getLsbD_rev w, popcount_rev w, rev_rev w⟩, decodedSym_reversed⟩

end Sys2Proof.Machine
end

section
/-! PROOFS. The control layer (R130 to R137): in which order the phases follow each other, how each command acts in each
phase, and what a host read does to the state. -/

namespace Sys2Proof.Machine

/-! ### The phase a step leads to -/

/-- The moves of `PHASE` out of the phase `p` that the core and the host can make: it stays, an accepted START begins an
invocation (R131), a stage hands off to the next (R137, R139), or an outcome ends the invocation (R305). -/
inductive PhaseMove (p : Phase) (t : State) : Prop where
  | stays (h : t.phase = p)
  | begins (hp : p = .idle) (ht : t.phase = .prime)
  | primed (hp : p = .prime) (ht : t.phase = .scan)
  | captured (hp : p = .scan) (ht : t.phase = .detect)
  | detected (hp : p = .detect) (ht : t.phase = .recover)
  | recovered (hp : p = .recover) (ht : t.phase = .frame)
  | framed (hp : p = .frame) (ht : t.phase = .decode)
  | ended (ht : t.phase = .idle) (hd : t.done = true)

@[simp] theorem runSample_phase (s : State) : (runSample s).phase = s.phase := by
  unfold runSample
  split <;> rfl

@[simp] theorem endRun_phase (P : Params) (s : State) : (endRun P s).phase = s.phase := by
  change (emitInterval s).phase = s.phase
  unfold emitInterval
  split <;> rfl

/-- R186: the advance hands off after the last sample; the sample's own effect before it does not matter. -/
theorem phaseMove_detectAdvance (p : Phase) (u : State) (hp : p = .detect) (hu : u.phase = p) :
    PhaseMove p (detectAdvance u) := by
  unfold detectAdvance
  split
  · exact .detected hp rfl
  · exact .stays hu

/-- R153, R154: a priming block is the last one or not. -/
theorem phaseMove_primeBlock {p : Phase} {t : State} {last : Prop} [Decidable last] (hp : p = .prime)
    (ht : t.phase = if last then .scan else .prime) : PhaseMove p t := by
  by_cases hlast : last
  · exact .primed hp (by rw [ht, if_pos hlast])
  · exact .stays (by rw [ht, if_neg hlast, hp])

theorem phaseMove_enterDecode (w : Symbol) (s : State) : PhaseMove s.phase (s.enterDecode w) := by
  obtain ⟨-, h⟩ | ⟨-, -, h⟩ | ⟨-, -, h⟩ := s.enterDecode_cases w <;> rw [h]
  · exact .stays rfl
  · exact .stays rfl
  · exact .ended rfl rfl

theorem phaseMove_takeSymbol (w : Symbol) (s : State) : PhaseMove s.phase (s.takeSymbol w) := by
  obtain ⟨-, h⟩ | ⟨-, -, h⟩ | ⟨-, -, -, h⟩ | ⟨-, -, -, h⟩ := s.takeSymbol_cases w <;> rw [h]
  · exact .stays rfl
  · exact .ended rfl rfl
  · exact .ended rfl rfl
  · exact .ended rfl rfl

/-- The core's moves by what they do to `PHASE`: raised outcomes, hand-offs, and moves inside a stage. -/
theorem CoreMove.phaseMove {P : Params} {s t : State} (h : CoreMove P s t) : PhaseMove s.phase t := by
  cases h with
  | cancelled | overflows | noBits | noSymbols | exhausted => exact .ended rfl rfl
  | primes _ hp => exact phaseMove_primeBlock hp rfl
  | eventBlock _ hp => exact .captured hp rfl
  | noWaveform _ hp => exact .detected hp rfl
  | runSampled _ hp => exact phaseMove_detectAdvance _ _ hp (runSample_phase s)
  | runEnds _ hp => exact phaseMove_detectAdvance _ _ hp (endRun_phase P s)
  | sampleSkipped _ hp => exact phaseMove_detectAdvance _ _ hp rfl
  | tooFewIntervals _ hp | recoverEnds _ hp => exact .recovered hp rfl
  | shortRead _ hp | badParity _ hp => exact .framed hp rfl
  | decodeBegins => exact phaseMove_enterDecode _ s
  | symbolTaken => exact phaseMove_takeSymbol _ s
  | waits | idles | requests | activeBlock | idleBlock | noiseBlock | detectBegins | recoverBegins | longInterval
  | shortInterval | frameBegins | symbolAccepted => exact .stays rfl

/-- Of the commands only an accepted START moves `PHASE` (R131 to R135). -/
theorem phaseMove_command (c : Command) (s t : State) (h : exec (decodeCommand c) s = .next t) :
    PhaseMove s.phase t := by
  obtain ⟨-, hidle, rfl⟩ | ⟨-, -, rfl⟩ | rfl := exec_command_cases c s t h
  · exact .begins hidle rfl
  · exact .stays rfl
  · exact .stays rfl

/-- Of the moves at the other ports only the platform's reset moves `PHASE` (R330). -/
theorem portStep_phase (P : Params) (m : PortMove) (s t : State) (h : portStep P m s = .next t) :
    t.phase = s.phase ∨ (m = .reset ∧ t.phase = .idle) := by
  obtain ⟨bytes, -, -, -, rfl⟩ | ⟨hreset, rfl⟩ | ⟨-, v, n, rfl⟩ := portStep_cases P m s t h
  · exact .inl rfl
  · exact .inr ⟨hreset, rfl⟩
  · exact .inl rfl

theorem stepWith_phase (P : Params) (s t : State) (h : stepWith P s = .next t) :
    PhaseMove s.phase t ∨ (t.phase = .idle ∧ ∃ rest, s.inputs = .port .reset :: rest) := by
  obtain ⟨rest, -, hcore⟩ | ⟨c, rest, -, hcmd⟩ | ⟨m, rest, hin, hport⟩ := stepWith_cases P s t h
  · exact .inl hcore.phaseMove
  · exact .inl (phaseMove_command c { s with inputs := rest } t hcmd)
  · obtain hstay | ⟨rfl, hidle⟩ := portStep_phase P m _ t hport
    · exact .inl (.stays hstay)
    · exact .inr ⟨hidle, rest, hin⟩

/-- Settles O47: `stepWith_phase`, one disjunct per phase move, the reset's beside the outcome's. -/
theorem phasesAdvanceInOrder : Obligations.PhasesAdvanceInOrder := by
  intro P s t h
  obtain hmove | ⟨hidle, hreset⟩ := stepWith_phase P s t h
  · cases hmove with
    | stays h => exact .inl h
    | ended ht hd => simp [ht, hd]
    | begins hp ht | primed hp ht | captured hp ht | detected hp ht | recovered hp ht | framed hp ht => simp [hp, ht]
  · simp [hidle, hreset]

/-! ### Commands by phase (R131 to R135) -/

@[simp] theorem exec_start_idle (s : State) (hp : s.phase = .idle) : exec .start s = .next s.startInvocation :=
  if_pos hp

@[simp] theorem exec_start_busy (s : State) (hp : s.phase ≠ .idle) : exec .start s = .next s :=
  if_neg hp

@[simp] theorem exec_cancel_segmenter (s : State) (hp : s.phase = .prime ∨ s.phase = .scan) :
    exec .cancel s = .next { s with cancelReq := true } :=
  if_pos hp

@[simp] theorem exec_cancel_elsewhere (s : State) (hprime : s.phase ≠ .prime) (hscan : s.phase ≠ .scan) :
    exec .cancel s = .next s :=
  if_neg (not_or.mpr ⟨hprime, hscan⟩)

@[simp] theorem exec_nop (s : State) : exec .nop s = .next s := rfl

@[simp] theorem exec_reservedCmd (s : State) : exec .reservedCmd s = .next s := rfl

/-- Settles O9: an accepted START is `State.startInvocation`, whose fields are its simp lemmas; a dropped one is
`exec_start_busy`. -/
theorem startIsAcceptedOnlyInIdle : Obligations.StartIsAcceptedOnlyInIdle :=
  fun s => ⟨fun hp => ⟨s.startInvocation, exec_start_idle s hp, by simp⟩, exec_start_busy s⟩

/-- Settles O11: one equation per command and phase. -/
theorem cancelNopAndReservedCommands : Obligations.CancelNopAndReservedCommands :=
  fun s => ⟨exec_cancel_segmenter s, exec_cancel_elsewhere s, exec_nop s, exec_reservedCmd s⟩

/-! ### Host reads (R89, R136) -/

theorem stepWith_port (P : Params) (s : State) (m : PortMove) (rest : List Move) (hin : s.inputs = .port m :: rest) :
    stepWith P s = portStep P m { s with inputs := rest } := by
  simp only [stepWith, hin]

theorem readStatusStep_of_legal (s : State) (hc : s.resultCode ≠ .reserved) :
    readStatusStep s = .next { s with hostSaw := .status s.status } := by
  simp [readStatusStep, hc]

theorem indexFits_eq_true_iff (P : Params) (k : Nat) :
    indexFits P k = true ↔ ∀ w, indexWidth P = some w → k < 2 ^ w := by
  unfold indexFits
  cases indexWidth P <;> simp

theorem readOutMove_of_fits (P : Params) (k : Nat) (s : State) (hk : indexFits P k = true) :
    readOutMove P k s = .next (readOutStep k s) :=
  if_pos hk

/-- Inside the reported text a read of `OUT` is no free byte. -/
theorem State.hostOut_of_reported (s : State) (k : Nat) (hd : s.done = true) (hk : k < s.resultLen) :
    s.hostOut k = Buffer.read s.out k := by
  simp [State.hostOut, hd, hk]

/-- Settles O52: the tape gives the move to the port (`stepWith_port`); what each read does there is its own lemma, and
the frame of each is the record update it is. -/
theorem hostReadsChangeNothing : Obligations.HostReadsChangeNothing := by
  refine fun P s rest => ⟨fun hin hc => ?status, fun hin => stepWith_port P s .readLen rest hin, fun k hin hk => ?out⟩
  case status => exact (stepWith_port P s .readStatus rest hin).trans (readStatusStep_of_legal _ hc)
  case out =>
    have hread : stepWith P s = .next (readOutStep k { s with inputs := rest }) :=
      (stepWith_port P s (.readOut k) rest hin).trans
        (readOutMove_of_fits P k _ ((indexFits_eq_true_iff P k).mpr hk))
    exact ⟨_, hread, fun hd hlen => congrArg HostView.out (State.hostOut_of_reported _ k hd hlen), rfl⟩

end Sys2Proof.Machine
end

section
/-! PROOFS. The segmenter (R151 to R163): the amplitude under a shift of all samples, the floor of the mean, the check
between two blocks, and what a block does in PRIME and in SCAN. -/

namespace Sys2Proof.Machine

/-! ### The amplitude under a shift (R155) -/

theorem maxOf_map_sub (l : List Int) (b : Int) (hl : l ≠ []) : maxOf (l.map fun x => x - b) = maxOf l - b := by
  cases l with
  | nil => exact absurd rfl hl
  | cons x l =>
    simp only [List.map_cons, maxOf, List.foldl_map]
    exact List.foldl_hom (fun y : Int => y - b) fun y z => max_sub_sub_right y z b

theorem minOf_map_sub (l : List Int) (b : Int) (hl : l ≠ []) : minOf (l.map fun x => x - b) = minOf l - b := by
  cases l with
  | nil => exact absurd rfl hl
  | cons x l =>
    simp only [List.map_cons, minOf, List.foldl_map]
    exact List.foldl_hom (fun y : Int => y - b) fun y z => min_sub_sub_right y z b

/-- The shift cancels in the difference of the two extremes. -/
theorem ptp_map_sub (l : List Int) (b : Int) : ptp (l.map fun x => x - b) = ptp l := by
  by_cases hl : l = []
  · rw [hl, List.map_nil]
  · rw [ptp, maxOf_map_sub l b hl, minOf_map_sub l b hl, sub_sub_sub_cancel_right, ptp]

theorem ptp_corrected (P : Params) (s : State) : ptp (corrected P s) = ptp (rawBlock P s) :=
  ptp_map_sub (rawBlock P s) s.bias

/-- Settles O27: `ptp_corrected`; the raw block, of which the power is taken, has no bias in it. -/
theorem powerIgnoresTheBias : Obligations.PowerIgnoresTheBias :=
  fun P s => ⟨ptp_corrected P s, fun _ => ⟨(ptp_corrected P s).symm, rfl⟩⟩

/-! ### The floor of the mean (R163) -/

theorem sum_map_sub_const (l : List Int) (b : Int) : (l.map fun x => x - b).sum = l.sum - b * l.length := by
  simpa [mul_comm] using Multiset.sum_map_sub (m := (l : Multiset Int)) (f := fun x => x) (g := fun _ => b)

/-- The floor of the mean, as the one integer whose multiple by the length is at most the sum and less than a length
below it. -/
theorem floorMean_spec (w : List Int) (hw : w ≠ []) :
    floorMean w * w.length ≤ w.sum ∧ w.sum < (floorMean w + 1) * w.length := by
  have hpos : (0 : Int) < w.length := by exact_mod_cast List.length_pos_iff.mpr hw
  exact ⟨Int.ediv_mul_le w.sum hpos.ne', Int.lt_ediv_add_one_mul_self w.sum hpos⟩

theorem finalBias_sum (w : List Int) : (finalBias w).sum = w.sum - floorMean w * w.length :=
  sum_map_sub_const w (floorMean w)

/-- Settles O29: the integer is `floorMean w`; what the two bounds of `floorMean_spec` leave of the sum is
`finalBias_sum`. -/
theorem finalCorrectionCentresTheWaveform : Obligations.FinalCorrectionCentresTheWaveform := by
  refine ⟨fun P s => rfl, fun w => ⟨rfl, fun hw => ?_⟩⟩
  obtain ⟨hle, hlt⟩ := floorMean_spec w hw
  rw [add_mul, one_mul] at hlt
  refine ⟨floorMean w, rfl, hle, by rwa [add_mul, one_mul], ?_, ?_⟩ <;> rw [finalBias_sum] <;> omega

/-! ### An outcome other than OK (R305) -/

theorem State.raise_reports (s : State) (c : ResultCode) (hc : c ≠ .ok) : Reports (s.raise c) c 0 :=
  ⟨rfl, if_neg hc, rfl, rfl, rfl, rfl⟩

theorem State.raise_onlyResultChanged (s : State) (c : ResultCode) : OnlyResultChanged s (s.raise c) := rfl

/-! ### Between two blocks (R151, R152) -/

theorem coreStep_beginBlock (P : Params) (s : State) (hp : s.phase = .prime ∨ s.phase = .scan) (hw : s.waitBlk = false)
    (hb : s.blkHere = false) : coreStep P s = .next (beginBlockStep s) := by
  obtain hp | hp := hp
  · simp [coreStep_prime P s hw hp, hb]
  · simp [coreStep_scan P s hw hp, hb]

theorem beginBlockStep_latched (s : State) (hc : s.cancelReq = true) : beginBlockStep s = s.raise .cancelled :=
  if_pos hc

theorem beginBlockStep_unlatched (s : State) (hc : s.cancelReq = false) : beginBlockStep s = s.requestBlock := by
  simp [beginBlockStep, hc]

/-- Settles O20: in both phases the step is `beginBlockStep`, which looks at the latch before it requests. -/
theorem cancelIsCheckedFirst : Obligations.CancelIsCheckedFirst := by
  intro P s hp hw hb
  have hstep := coreStep_beginBlock P s hp hw hb
  constructor
  · intro hc
    rw [beginBlockStep_latched s hc] at hstep
    exact ⟨_, hstep, s.raise_reports .cancelled (by decide), s.raise_onlyResultChanged .cancelled⟩
  · intro hc
    rw [hstep, beginBlockStep_unlatched s hc, State.requestBlock]

/-! ### The corrected samples in a buffer (R152) -/

theorem Buffer.read_writeList_corrected (P : Params) (s : State) (b : Buffer Int) (base k : Nat) (hk : k < P.blockN) :
    Buffer.read (Buffer.writeList b base (corrected P s)) (base + k) = (Buffer.read s.blk k).toInt - s.bias := by
  rw [read_writeList_inside b base _ k (by simpa using hk), corrected_getElem]

theorem Buffer.read_writeList_corrected_outside (P : Params) (s : State) (b : Buffer Int) (base a : Nat)
    (ha : a < base ∨ base + P.blockN ≤ a) :
    Buffer.read (Buffer.writeList b base (corrected P s)) a = Buffer.read b a :=
  read_writeList_outside b base _ a (by simpa using ha)

/-- The block as the preceding idle block: below `P_BLOCK_N` its corrected samples. -/
theorem Buffer.read_idleBuf_corrected (P : Params) (s : State) (b : Buffer Int) (k : Nat) (hk : k < P.blockN) :
    Buffer.read (Buffer.writeList b 0 (corrected P s)) k = (Buffer.read s.blk k).toInt - s.bias := by
  simpa using read_writeList_corrected P s b 0 k hk

theorem Buffer.read_idleBuf_corrected_above (P : Params) (s : State) (b : Buffer Int) (k : Nat) (hk : P.blockN ≤ k) :
    Buffer.read (Buffer.writeList b 0 (corrected P s)) k = Buffer.read b k :=
  read_writeList_corrected_outside P s b 0 k (.inr (by simpa using hk))

/-! ### A block in PRIME (R154) -/

theorem coreStep_primeBlock (P : Params) (s : State) (hp : s.phase = .prime) (hw : s.waitBlk = false)
    (hb : s.blkHere = true) : coreStep P s = primeStep P s := by
  simp [coreStep_prime P s hw hp, hb]

theorem primeStep_of_lt (P : Params) (s : State) (hn : s.primeCnt < P.powWin) :
    primeStep P s = .next { s.consumeBlock P with
      pwin := s.pwin.set s.primeCnt (blockPower P s)
      idleBuf := Buffer.writeList s.idleBuf 0 (corrected P s)
      primeCnt := s.primeCnt + 1
      phase := if s.primeCnt + 1 = P.powWin then .scan else .prime } :=
  if_pos hn

/-- Settles O23: no test of the power stands in the step (`primeStep_of_lt`); `IDLE_BUF` by the laws of the corrected
samples, the rest by the record it is. -/
theorem primingBlock : Obligations.PrimingBlock := by
  intro P s hp hw hb hn
  exact ⟨_, (coreStep_primeBlock P s hp hw hb).trans (primeStep_of_lt P s hn), rfl,
    Buffer.read_idleBuf_corrected P s s.idleBuf, Buffer.read_idleBuf_corrected_above P s s.idleBuf,
    rfl, rfl, rfl, rfl, rfl⟩

/-! ### A block in SCAN (R156 to R158, R162) -/

theorem coreStep_scanBlock (P : Params) (s : State) (hp : s.phase = .scan) (hw : s.waitBlk = false)
    (hb : s.blkHere = true) : coreStep P s = .next (scanStep P s) := by
  simp [coreStep_scan P s hw hp, hb]

theorem scanStep_active (P : Params) (s : State) (ha : isActive P (ptp (rawBlock P s)) s.pwin.sum = true) :
    scanStep P s = activeStep P s :=
  if_pos ha

theorem captureFull_eq_true_iff (P : Params) (s : State) : captureFull P s = true ↔ P.maxActive = some s.actCnt := by
  simp [captureFull]

theorem activeStep_full (P : Params) (s : State) (hm : P.maxActive = some s.actCnt) :
    activeStep P s = (s.consumeBlock P).raise .captureOverflow :=
  if_pos ((captureFull_eq_true_iff P s).mpr hm)

theorem activeStep_room (P : Params) (s : State) (hm : P.maxActive ≠ some s.actCnt) :
    activeStep P s = { s.consumeBlock P with
      actBuf := Buffer.writeList s.actBuf (s.actCnt * P.blockN) (corrected P s)
      actCnt := s.actCnt + 1 } :=
  if_neg (mt (captureFull_eq_true_iff P s).mp hm)

/-- Settles O24: below the capacity `activeStep_room`, with the address laws at `ACT_CNT` blocks; at it
`activeStep_full`, an outcome raised after the block is consumed. -/
theorem activeBlock : Obligations.ActiveBlock := by
  intro P s hp hw hb ha
  have hstep : coreStep P s = .next (activeStep P s) := by
    rw [coreStep_scanBlock P s hp hw hb, scanStep_active P s ha]
  constructor
  · intro hm
    rw [activeStep_room P s hm] at hstep
    refine ⟨_, hstep, rfl, rfl, rfl, Buffer.read_writeList_corrected P s s.actBuf _, fun a hout => ?_, rfl⟩
    rw [Nat.succ_mul] at hout
    exact Buffer.read_writeList_corrected_outside P s s.actBuf _ a hout
  · intro hm
    rw [activeStep_full P s hm] at hstep
    exact ⟨_, hstep, (s.consumeBlock P).raise_reports .captureOverflow (by decide), rfl⟩

/-- With no run in progress there is none to drop: the idle block is the noise block's case with `ACT_CNT` 0 already. -/
theorem idleStep_eq_noiseStep (P : Params) (s : State) (hn : s.actCnt = 0) : idleStep P s = noiseStep P s := by
  simp [idleStep, noiseStep, State.consumeBlock, hn]

theorem scanStep_notActive (P : Params) (s : State) (hn : s.actCnt ≤ 1)
    (ha : isActive P (ptp (rawBlock P s)) s.pwin.sum = false) : scanStep P s = noiseStep P s := by
  have ha : isActive P (blockPower P s) s.windowSum = false := ha
  obtain hn | hn := Nat.le_one_iff_eq_zero_or_eq_one.mp hn
  · simp [scanStep, ha, hn, idleStep_eq_noiseStep P s hn]
  · simp [scanStep, ha, hn]

/-- Settles O25: with `ACT_CNT` 0 or 1 the step is `noiseStep`; its `IDLE_BUF` by the laws of the corrected samples, the
rest by the record it is. -/
theorem idleAndNoiseBlocks : Obligations.IdleAndNoiseBlocks := by
  intro P s hp hw hb hn ha
  have hstep : coreStep P s = .next (noiseStep P s) := by
    rw [coreStep_scanBlock P s hp hw hb, scanStep_notActive P s hn ha]
  exact ⟨_, hstep, rfl, rfl, rfl, rfl, Buffer.read_idleBuf_corrected P s s.idleBuf,
    Buffer.read_idleBuf_corrected_above P s s.idleBuf, rfl⟩

end Sys2Proof.Machine
end

section
/-! PROOFS. The sample steps of the Transition Detector (R182 to R186): what a sample does to the runs does not look at
`WAVE_LEN`, which only the advance after it compares. -/

namespace Sys2Proof.Machine

/-- The core step inside DETECT is one of R183, R184 and R185, followed by the advance of R186. -/
theorem coreStep_detect_sample_cases (P : Params) (s t : State) (hw : s.waitBlk = false) (hp : s.phase = .detect)
    (he : s.entered = true) (h : coreStep P s = .next t) :
    (aboveThr P s = true ∧ t = detectAdvance (runSample s)) ∨
    (aboveThr P s = false ∧ s.peak ≠ 0 ∧ (s.havePrev = true → s.prevIdx ≤ s.peakIdx) ∧
      t = detectAdvance (endRun P s)) ∨
    (aboveThr P s = false ∧ s.peak = 0 ∧ t = detectAdvance s) := by
  cases coreStep_cases P s t h with
  | runSampled _ _ _ _ ha => exact .inl ⟨ha, rfl⟩
  | runEnds _ _ _ _ ha hk hi => exact .inr (.inl ⟨ha, hk, hi, rfl⟩)
  | sampleSkipped _ _ _ _ ha hk => exact .inr (.inr ⟨ha, hk, rfl⟩)
  | _ => simp_all -- the moves of a waiting core, of another phase, and of an entry step

/-! ### The sample's effect and `WAVE_LEN` -/

theorem runSample_setWaveLen (s : State) (n : Nat) :
    runSample { s with waveLen := n } = { runSample s with waveLen := n } := by
  change (if (s.peak : Int) < signedSample s then _ else _) = _
  unfold runSample
  split <;> rfl

theorem emitInterval_setWaveLen (s : State) (n : Nat) :
    emitInterval { s with waveLen := n } = { emitInterval s with waveLen := n } := by
  unfold emitInterval
  split <;> rfl

theorem endRun_setWaveLen (P : Params) (s : State) (n : Nat) :
    endRun P { s with waveLen := n } = { endRun P s with waveLen := n } := by
  unfold endRun
  rw [emitInterval_setWaveLen]
  rfl

@[simp] theorem runSample_detJ (s : State) : (runSample s).detJ = s.detJ := by
  unfold runSample
  split <;> rfl

@[simp] theorem runSample_waveLen (s : State) : (runSample s).waveLen = s.waveLen := by
  unfold runSample
  split <;> rfl

@[simp] theorem endRun_detJ (P : Params) (s : State) : (endRun P s).detJ = s.detJ := by
  change (emitInterval s).detJ = s.detJ
  unfold emitInterval
  split <;> rfl

@[simp] theorem endRun_waveLen (P : Params) (s : State) : (endRun P s).waveLen = s.waveLen := by
  change (emitInterval s).waveLen = s.waveLen
  unfold emitInterval
  split <;> rfl

/-! ### The exit (R186) -/

/-- At the last sample the advance is that of the same state with a waveform one sample longer, and the hand-off. -/
theorem detectAdvance_last {u v : State} {n : Nat} (hv : v = { u with waveLen := n + 1 }) (hn : u.waveLen = n)
    (hlast : u.detJ + 1 = n) :
    detectAdvance u = { detectAdvance v with waveLen := n, phase := .recover, entered := false } := by
  subst hv hn
  simp [detectAdvance, State.handOff, hlast]

/-- Settles O32: in each of the three cases of a sample step the sample's effect commutes with the length of the
waveform, and `detectAdvance_last` is the exit. -/
theorem detectorExit : Obligations.DetectorExit := by
  intro P s t hp he hw hlast h
  have hn : s.detJ < s.waveLen := by omega
  obtain ⟨ha, rfl⟩ | ⟨ha, hk, hi, rfl⟩ | ⟨ha, hk, rfl⟩ :=
    coreStep_detect_sample_cases P { s with waveLen := s.waveLen + 1 } t hw hp he h
  · rw [coreStep_detect_run P s hw hp he hn ha]
    exact congrArg _ (detectAdvance_last (runSample_setWaveLen s _) (runSample_waveLen s) (by simpa using hlast))
  · rw [coreStep_detect_end P s hw hp he hn ha hk hi]
    exact congrArg _ (detectAdvance_last (endRun_setWaveLen P s _) (endRun_waveLen P s) (by simpa using hlast))
  · rw [coreStep_detect_quiet P s hw hp he hn ha hk]
    exact congrArg _ (detectAdvance_last rfl rfl hlast)

end Sys2Proof.Machine
end

section
/-! PROOFS. The Bit Recoverer (R200 to R206): the hand-off of too few intervals, and the two outcomes of a
classification. -/

namespace Sys2Proof.Machine

/-! ### Entry (R200, R202) -/

theorem coreStep_recover_tooFew (P : Params) (s : State) (hw : s.waitBlk = false) (hp : s.phase = .recover)
    (he : s.entered = false) (hn : s.ivlCnt < leadIn P) : coreStep P s = .next (recoverTooFew s) := by
  rw [coreStep_recover P s hw hp]
  simp only [recoverStep, he, Bool.false_eq_true, if_false, if_pos hn]

/-- At the entry step `entered` is clear already, so the hand-off moves only the phase. -/
theorem recoverTooFew_of_not_entered (s : State) (he : s.entered = false) :
    recoverTooFew s = { s with bitCnt := 0, phase := .frame } := by
  simp [recoverTooFew, State.handOff, he]

/-- Settles O34: the two entry steps, the first with the hand-off written out. -/
theorem recovererEntry : Obligations.RecovererEntry := by
  intro P s hp he hw
  refine ⟨fun hn => ?_, coreStep_recover_seed P s hw hp he⟩
  rw [coreStep_recover_tooFew P s hw hp he hn, recoverTooFew_of_not_entered s he]

/-! ### Classification (R203 to R205) -/

theorem classify_long (P : Params) (s : State) (hl : isLong P (nextInterval P s) s.cwin.sum = true) :
    classify P s = longCell (nextInterval P s) s :=
  if_pos hl

theorem classify_short (P : Params) (s : State) (hl : isLong P (nextInterval P s) s.cwin.sum = false) :
    classify P s = shortCells (nextInterval P s) s :=
  if_neg (by simp [hl])

/-- Either way one bit is appended, and only `BITS`, `REC_I` and the clock window move. -/
theorem classify_frame (P : Params) (s : State) :
    (classify P s).bitCnt = s.bitCnt + 1 ∧
      (∀ k, k ≠ s.bitCnt → Buffer.read (classify P s).bits k = Buffer.read s.bits k) ∧
      { classify P s with bits := s.bits, bitCnt := s.bitCnt, recI := s.recI, cwin := s.cwin } = s := by
  cases hl : isLong P (nextInterval P s) s.cwin.sum with
  | true =>
    rw [classify_long P s hl]
    exact ⟨rfl, fun k => Buffer.read_write_other s.bits s.bitCnt k false, rfl⟩
  | false =>
    rw [classify_short P s hl]
    exact ⟨rfl, fun k => Buffer.read_write_other s.bits s.bitCnt k true, rfl⟩

/-- Settles O35: with fewer than two intervals left the hand-off; otherwise `classify`, whose frame does not depend on
the test, and whose bit, index and window are those of `longCell` and of `shortCells`. -/
theorem recovererClassification : Obligations.RecovererClassification := by
  intro P s hp he hw
  refine ⟨coreStep_recover_end P s hw hp he, fun hn => ?_⟩
  obtain ⟨hcnt, hbits, hframe⟩ := classify_frame P s
  refine ⟨classify P s, coreStep_recover_classify P s hw hp he hn, hcnt, hbits, fun hl => ?long, fun hl => ?short,
    hframe⟩
  case long =>
    rw [classify_long P s hl]
    exact ⟨Buffer.read_write_same s.bits s.bitCnt false, rfl, rfl⟩
  case short =>
    rw [classify_short P s hl]
    exact ⟨Buffer.read_write_same s.bits s.bitCnt true, rfl, rfl⟩

end Sys2Proof.Machine
end

section
/-! PROOFS. The Byte Framer (R220 to R224): an odd-parity word as a candidate, the run-out discard as the search for the
first 1 bit, and the entry step. -/

namespace Sys2Proof.Machine

/-! ### A symbol instruction and its word (R109, R126) -/

/-- The table of R109 and R126 read back at each of its rows. -/
theorem decodeSymbol_encode (i : Instr) (hi : spaceOf i = .symbol) : decodeSymbol ((encode i).setWidth 5) = i := by
  cases i <;> revert hi <;> decide

/-- No command may stand in `SYMS`. -/
theorem spaceOf_of_mayStandInSyms (i : Instr) (hi : i.mayStandInSyms = true) : spaceOf i = .symbol := by
  cases i <;> revert hi <;> decide

theorem oddParity_encode (i : Instr) (hi : i.mayStandInSyms = true) : oddParity ((encode i).setWidth 5) = true := by
  rw [← mayStandInSyms_decodeSymbol, decodeSymbol_encode i (spaceOf_of_mayStandInSyms i hi), hi]

/-! ### An odd-parity word as a candidate (R224) -/

theorem exec_framer_valid (i : Instr) (s : State) (hi : i.mayStandInSyms = true) (hp : s.phase = .frame)
    (he : s.entered = true) : exec i s = .next (s.acceptSymbol ((encode i).setWidth 5)) := by
  have hexec := exec_symbolWord_framer ((encode i).setWidth 5) s hp he
  rwa [decodeSymbol_encode i (spaceOf_of_mayStandInSyms i hi),
    State.frameCandidate_odd _ s (oddParity_encode i hi)] at hexec

/-- Settles O16: each listed instruction is one that may stand in `SYMS`, so its step is `State.acceptSymbol`
(`exec_framer_valid`), one write at `SYM_CNT`. -/
theorem validWordsAreFramed : Obligations.ValidWordsAreFramed := by
  intro i hi s hp he
  have hvalid : i.mayStandInSyms = true := List.contains_iff_mem.mpr hi
  exact ⟨_, exec_framer_valid i s hvalid hp he, rfl, rfl, Buffer.read_write_same s.syms s.symCnt _,
    fun k => Buffer.read_write_other s.syms s.symCnt k _, rfl⟩

/-! ### The run-out discard (R221) -/

theorem skipZeros_of_one (b : Buffer Bool) (n k : Nat) (h : Buffer.read b k = true) : skipZeros b (n + 1) k = k :=
  if_pos h

theorem skipZeros_of_zero (b : Buffer Bool) (n k : Nat) (h : Buffer.read b k = false) :
    skipZeros b (n + 1) k = skipZeros b n (k + 1) := by
  simp [skipZeros, h]

theorem skipZeros_le (b : Buffer Bool) (n k : Nat) : skipZeros b n k ≤ k + n := by
  induction n generalizing k with
  | zero => exact Nat.le_refl k
  | succ n ih =>
    cases h : Buffer.read b k with
    | true => rw [skipZeros_of_one b n k h]; omega
    | false =>
      have hrest := ih (k + 1)
      rw [skipZeros_of_zero b n k h]
      omega

/-- What is skipped are 0 bits. -/
theorem read_of_lt_skipZeros (b : Buffer Bool) (n k i : Nat) (hk : k ≤ i) (hi : i < skipZeros b n k) :
    Buffer.read b i = false := by
  induction n generalizing k with
  | zero => exact absurd hi (Nat.not_lt.mpr hk)
  | succ n ih =>
    cases h : Buffer.read b k with
    | true => exact absurd (skipZeros_of_one b n k h ▸ hi) (Nat.not_lt.mpr hk)
    | false =>
      obtain rfl | hlt := Nat.eq_or_lt_of_le hk
      · exact h
      · exact ih (k + 1) hlt (skipZeros_of_zero b n k h ▸ hi)

/-- A search that stops short of its range stops at a 1 bit. -/
theorem read_skipZeros (b : Buffer Bool) (n k : Nat) (hlt : skipZeros b n k < k + n) :
    Buffer.read b (skipZeros b n k) = true := by
  induction n generalizing k with
  | zero => exact absurd hlt (Nat.lt_irrefl k)
  | succ n ih =>
    cases h : Buffer.read b k with
    | true => rwa [skipZeros_of_one b n k h]
    | false =>
      rw [skipZeros_of_zero b n k h] at hlt ⊢
      exact ih (k + 1) (by omega)

/-! ### Entry (R220, R221) -/

theorem frameStage_noBits (s : State) (he : s.entered = false) (hn : s.bitCnt = 0) :
    frameStage s = s.raise .emptyCapture := by
  simp [frameStage, he, hn]

theorem frameStage_begins (s : State) (he : s.entered = false) (hn : 0 < s.bitCnt) : frameStage s = frameEntry s := by
  simp [frameStage, he, hn.ne']

/-- The entry step puts `FR_K` at the first 1 bit, at `BIT_CNT` if there is none, and clears `SYM_CNT`. -/
theorem frameEntry_spec (s : State) :
    (frameEntry s).frK ≤ s.bitCnt ∧ (∀ k < (frameEntry s).frK, Buffer.read s.bits k = false) ∧
      ((frameEntry s).frK < s.bitCnt → Buffer.read s.bits (frameEntry s).frK = true) := by
  refine ⟨?bound, fun k => read_of_lt_skipZeros s.bits s.bitCnt 0 k (Nat.zero_le k), fun hlt => ?one⟩
  case bound => exact (skipZeros_le s.bits s.bitCnt 0).trans_eq (Nat.zero_add s.bitCnt)
  case one => exact read_skipZeros s.bits s.bitCnt 0 (hlt.trans_eq (Nat.zero_add s.bitCnt).symm)

/-- Settles O37: the two entry steps, the second by `frameEntry_spec`, and the short read's hand-off. -/
theorem framerEntryAndExit : Obligations.FramerEntryAndExit := by
  intro P s hp hw
  refine ⟨fun he hn => ?noBits, fun he hn => ?begins, coreStep_frame_short P s hw hp⟩
  case noBits =>
    exact ⟨_, frameStage_noBits s he hn ▸ coreStep_frame_entry P s hw hp he, s.raise_reports .emptyCapture (by decide),
      s.raise_onlyResultChanged .emptyCapture⟩
  case begins =>
    obtain ⟨hbound, hzeros, hone⟩ := frameEntry_spec s
    exact ⟨_, frameStage_begins s he hn ▸ coreStep_frame_entry P s hw hp he, rfl, rfl, hbound, hzeros, hone, rfl⟩

end Sys2Proof.Machine
end

section
/-! PROOFS. The decoder's reading of a word as a character (R241), and its two exits for want of symbols (R240, R245). The steps
themselves are in Laws/Step. -/

namespace Sys2Proof.Machine

/-! ### The character of a word (R241) -/

/-- The data bits are the word without its parity bit, `s[4]`. -/
theorem dataBits_toNat (w : Symbol) : (dataBits w).toNat = w.toNat % 16 := by
  simp [dataBits]

/-- The sum stays within a byte, as the offset is 48 and the data bits are below 16. -/
theorem charOf_toNat (w : Symbol) : (charOf w).toNat = 48 + (dataBits w).toNat := by
  simp only [charOf, Config.charOffset, BitVec.toNat_add, BitVec.toNat_setWidth, BitVec.toNat_ofNat]
  omega

/-- R105: the data bits are the weighted sum of `d0` to `d3`, each bit a binary digit of the word's number. -/
theorem dataBits_toNat_eq_sum (w : Symbol) : (dataBits w).toNat =
    (w.getLsbD 0).toNat + 2 * (w.getLsbD 1).toNat + 4 * (w.getLsbD 2).toNat + 8 * (w.getLsbD 3).toNat := by
  simp only [dataBits_toNat, BitVec.getLsbD, Nat.toNat_testBit]
  omega

/-- Settles O5: 48 plus the data bits, and these as the sum of their four digits. -/
theorem characterOfAWord : Obligations.CharacterOfAWord := by
  intro w
  rw [charOf_toNat, dataBits_toNat_eq_sum]

/-! ### No symbol to read (R240, R245) -/

/-- A core step that raises an exception reports it with no result text and touches nothing but the result (R305). -/
theorem coreStep_raise_spec (P : Params) (s : State) (c : ResultCode) (hc : c ≠ .ok)
    (h : coreStep P s = .next (s.raise c)) :
    ∃ t, coreStep P s = .next t ∧ Reports t c 0 ∧ OnlyResultChanged s t :=
  ⟨_, h, s.raise_reports c hc, s.raise_onlyResultChanged c⟩

/-- Settles O39: the entry step with no symbols and the body step past the last one each raise their exception. -/
theorem decoderRunsOutOfSymbols : Obligations.DecoderRunsOutOfSymbols := by
  intro P s hp hw
  refine ⟨fun he hn => ?empty, fun he hn => ?exhausted⟩
  case empty => exact coreStep_raise_spec P s .emptyCapture (by decide) (coreStep_decode_empty P s hw hp he hn)
  case exhausted =>
    exact coreStep_raise_spec P s .missingEndSentinel (by decide) (coreStep_decode_exhausted P s hw hp he hn)

end Sys2Proof.Machine
end

section
/-! PROOFS. The sixteen valid symbol words one by one (R270 to R285): a row of the table against the decoder's reading by
character, the entry step that reverses, and the end sentinel's parity and LRC check. -/

namespace Sys2Proof.Machine

/-! ### A word read by the decoder -/

theorem exec_symbolWord_entry (w : Symbol) (s : State) (hp : s.phase = .decode) (he : s.entered = false) :
    exec (decodeSymbol w) s = .next (s.enterDecode w) := by
  simp [exec_symbolWord, symbolReader, hp, he]

theorem exec_symbolWord_body (w : Symbol) (s : State) (hp : s.phase = .decode) (he : s.entered = true) :
    exec (decodeSymbol w) s = .next (s.takeSymbol w) := by
  simp [exec_symbolWord, symbolReader, hp, he]

theorem State.enterDecode_start (w : Symbol) (s : State) (hw : charOf w = startChar) :
    s.enterDecode w = { s with dir := false, acc := w, decJ := 1, outLen := 0, entered := true } :=
  if_pos hw

theorem State.takeSymbol_data (w : Symbol) (s : State) (hw : charOf w ≠ endChar) :
    s.takeSymbol w = s.takeData (dataBits w) (charOf w) :=
  if_neg hw

/-- R245, R248: a data character writes `OUT` at `OUT_LEN` only. -/
theorem takenAsData_decodeSymbol (w : Symbol) (hw : charOf w ≠ endChar) :
    TakenAsData (decodeSymbol w) (dataBits w) (charOf w) := by
  intro s hp he
  have hexec : exec (decodeSymbol w) s = .next (s.takeData (dataBits w) (charOf w)) := by
    rw [exec_symbolWord_body w s hp he, s.takeSymbol_data w hw]
  exact ⟨_, hexec, rfl, rfl, rfl, Buffer.read_write_same s.out s.outLen _,
    fun k => Buffer.read_write_other s.out s.outLen k _, rfl⟩

/-- R243, R244: at `SYMS[0]` any character but `;` turns the sequence around, and the last symbol decides what follows. -/
theorem reversesAtEntry_decodeSymbol (w : Symbol) (hw : charOf w ≠ startChar) : ReversesAtEntry (decodeSymbol w) := by
  intro s hp he _
  rw [exec_symbolWord_entry w s hp he]
  obtain ⟨hstart, -⟩ | ⟨-, hlast, h⟩ | ⟨-, hlast, h⟩ := s.enterDecode_cases w
  · exact absurd hstart hw
  · exact ⟨_, congrArg _ h, rfl, fun _ => ⟨rfl, rfl, rfl, rfl, rfl⟩, absurd hlast⟩
  · exact ⟨_, congrArg _ h, rfl, fun hc => absurd hc hlast, fun _ =>
      ⟨State.raise_reports _ .missingStartSentinel (by decide), State.raise_onlyResultChanged _ _⟩⟩

/-! ### A row of the table of data characters (R270 to R280, R282 to R284) -/

/-- An instruction, the word, the data bits, the character and the reversed word that its rule states: they agree with the
code map and with the decoder's reading of the word, and the character is no sentinel. -/
def IsDataRow (r : Instr × Byte × BitVec 4 × Byte × Byte) : Prop :=
  encode r.1 = r.2.1 ∧ decodeSymbol (r.2.1.setWidth 5) = r.1 ∧ dataBits (r.2.1.setWidth 5) = r.2.2.1 ∧
    charOf (r.2.1.setWidth 5) = r.2.2.2.1 ∧ (rev (r.2.1.setWidth 5)).setWidth 8 = r.2.2.2.2 ∧
    r.2.2.2.1 ≠ startChar ∧ r.2.2.2.1 ≠ endChar

theorem IsDataRow.spec {r : Instr × Byte × BitVec 4 × Byte × Byte} (hr : IsDataRow r) :
    encode r.1 = r.2.1 ∧ (rev (r.2.1.setWidth 5)).setWidth 8 = r.2.2.2.2 ∧
      TakenAsData r.1 r.2.2.1 r.2.2.2.1 ∧ ReversesAtEntry r.1 := by
  obtain ⟨hword, hinstr, hdata, hchar, hrev, hstart, hend⟩ := hr
  refine ⟨hword, hrev, ?_, ?_⟩
  · rw [← hinstr, ← hdata, ← hchar]
    exact takenAsData_decodeSymbol _ (hchar ▸ hend)
  · rw [← hinstr]
    exact reversesAtEntry_decodeSymbol _ (hchar ▸ hstart)

/-- Settles O12: each of the ten rows is a row of data characters (`IsDataRow`), by the tables. -/
theorem digitWords : Obligations.DigitWords := by
  refine fun r hr => IsDataRow.spec ?_
  revert r
  unfold IsDataRow
  decide

/-- Settles O13: each of the four rows is a row of data characters (`IsDataRow`), by the tables. -/
theorem otherDataWords : Obligations.OtherDataWords := by
  refine fun r hr => IsDataRow.spec ?_
  revert r
  unfold IsDataRow
  decide

/-! ### The start sentinel (R281) -/

/-- Settles O14: forward by `State.enterDecode_start`; reversed is the clause of `ReversesAtEntry` in which the last symbol,
0x1A, turns into `;`; in the body the word is read as data. -/
theorem startSentinelWord : Obligations.StartSentinelWord := by
  refine ⟨rfl, by decide, fun s hp he => ?forward, fun w s _ hp he hn hw hlast => ?reversed,
    takenAsData_decodeSymbol 0x0B#5 (by decide)⟩
  case forward =>
    have hexec : exec .startSentinel s = .next (s.enterDecode 0x0B#5) := exec_symbolWord_entry 0x0B#5 s hp he
    rw [s.enterDecode_start 0x0B#5 (by decide)] at hexec
    exact ⟨_, hexec, rfl, rfl, rfl, rfl, rfl, rfl⟩
  case reversed =>
    have hrev : rev (Buffer.read s.syms (s.symCnt - 1)) = 0x0B#5 := by rw [hlast]; decide
    obtain ⟨t, hexec, hdir, hstart, -⟩ := reversesAtEntry_decodeSymbol w hw s hp he hn
    rw [hrev] at hstart
    exact ⟨t, hexec, hdir, hstart (by decide)⟩

/-! ### The end sentinel (R285, R246, R247) -/

theorem getLsbD_forceParity (acc : Symbol) (k : Nat) (hk : k < 4) :
    (forceParity acc).getLsbD k = acc.getLsbD k := by
  rw [forceParity, BitVec.getLsbD_append]
  simp [dataBits, hk]

/-- R246: the forced bit makes the count odd, at each of the 32 values of `ACC`. -/
theorem popcount_forceParity (acc : Symbol) : popcount (forceParity acc) % 2 = 1 := by
  revert acc
  decide

/-- Folding the data bits 1111 inverts the four data columns. -/
theorem getLsbD_foldData_ones (acc : Symbol) (k : Nat) (hk : k < 4) :
    (foldData acc 0b1111#4).getLsbD k = !acc.getLsbD k := by
  interval_cases k <;> simp [foldData]

/-- R245 to R247: the end sentinel finishes `ACC` and raises OK or BadLRC, as the next symbol answers. -/
theorem State.takeSymbol_end (w : Symbol) (s : State) (hw : charOf w = endChar) :
    ∃ c, s.takeSymbol w = State.raise c { s with acc := forceParity (foldData s.acc (dataBits w)) } ∧
      (s.decJ + 1 < s.symCnt ∧ decodedSym s (s.decJ + 1) = forceParity (foldData s.acc (dataBits w)) → c = .ok) ∧
      (s.symCnt ≤ s.decJ + 1 ∨ decodedSym s (s.decJ + 1) ≠ forceParity (foldData s.acc (dataBits w)) →
        c = .badLrc) := by
  obtain ⟨hc, -⟩ | ⟨-, hn, h⟩ | ⟨-, -, hlrc, h⟩ | ⟨-, hn, hlrc, h⟩ := s.takeSymbol_cases w
  · exact absurd hw hc
  · exact ⟨_, h, fun hok => absurd hok.1 (Nat.not_lt.mpr hn), fun _ => rfl⟩
  · exact ⟨_, h, fun hok => absurd hok.2 hlrc, fun _ => rfl⟩
  · exact ⟨_, h, fun _ => rfl, fun hbad => absurd hlrc (hbad.resolve_left (Nat.not_le.mpr hn))⟩

/-- Settles O15: the body step is `State.takeSymbol_end` at the data bits 1111; the columns and the parity of the finished
`ACC` are those of `forceParity` after `foldData`. -/
theorem endSentinelWord : Obligations.EndSentinelWord := by
  refine ⟨rfl, by decide, reversesAtEntry_decodeSymbol 0x1F#5 (by decide), fun s hp he => ?body⟩
  case body =>
    have hexec : exec .endSentinel s = .next (s.takeSymbol 0x1F#5) := exec_symbolWord_body 0x1F#5 s hp he
    obtain ⟨c, hend, hok, hbad⟩ := s.takeSymbol_end 0x1F#5 (by decide)
    refine ⟨_, hexec.trans (congrArg _ hend), fun k hk => ?columns, popcount_forceParity _,
      ⟨fun hmatch => ?ok, fun hdiffer => ?bad⟩, State.raise_onlyResultChanged _ c⟩
    case columns =>
      exact (getLsbD_forceParity _ k hk).trans (getLsbD_foldData_ones s.acc k hk)
    case ok =>
      obtain rfl : c = .ok := hok hmatch
      exact ⟨rfl, rfl, rfl, rfl, rfl, rfl⟩
    case bad =>
      obtain rfl : c = .badLrc := hbad hdiffer
      exact State.raise_reports _ .badLrc (by decide)

end Sys2Proof.Machine
end

section
/-! PROOFS. Reset (R330): the registers it fixes are the ones `STATUS` shows (R38), so the word reads zero both at power-on
and after a reset of a running machine. -/

namespace Sys2Proof.Machine

/-! ### The word of an idle core with nothing to report -/

/-- R38: an idle core whose flags are clear and whose outcome is OK, code 0, shows the word zero. -/
theorem State.status_eq_zero (s : State) (hphase : s.phase = .idle) (hdone : s.done = false)
    (hcancel : s.cancelReq = false) (hwait : s.waitBlk = false) (hcode : s.resultCode = .ok) :
    s.status = 0x0000#16 := by
  have hbusy : s.busy = false := by simp [State.busy, hphase]
  have hphaseBits : phaseCode s.phase = 0#3 := hphase ▸ rfl
  have hcodeBits : resultBits s.resultCode = 0#3 := hcode ▸ rfl
  refine BitVec.eq_of_getLsbD_eq fun i _ => ?_
  simp [s.getLsbD_status, hbusy, hdone, hcancel, hwait, hphaseBits, hcodeBits]

/-! ### Reset of a running machine -/

@[simp] theorem status_resetStep (P : Params) (s : State) : (resetStep P s).status = 0x0000#16 :=
  State.status_eq_zero _ rfl rfl rfl rfl rfl

/-- R330, R331: with `RST` next on the tape, every block takes its reset step, in whatever state it is. -/
theorem stepWith_reset (P : Params) (s : State) (rest : List Move) (hin : s.inputs = .port .reset :: rest) :
    stepWith P s = .next (resetStep P { s with inputs := rest }) :=
  stepWith_port P s .reset rest hin

/-- Settles O53: the step is `stepWith_reset`, whose registers are those of `State.resetFor`; the word is
`status_resetStep` there and `State.status_reset` at power-on. -/
theorem resetLeavesAnIdleCore : Obligations.ResetLeavesAnIdleCore := by
  refine ⟨fun P s rest hin => ?running, ?powerOn⟩
  case running =>
    exact ⟨_, stepWith_reset P s rest hin, rfl, rfl, rfl, rfl, rfl, rfl, status_resetStep P _, rfl⟩
  case powerOn =>
    exact ⟨rfl, rfl, rfl, rfl, rfl, rfl, State.status_reset⟩

end Sys2Proof.Machine
end

section
/-! PROOFS. Runs: how they compose, what a silent tape makes of a step, that an outcome is the last word of such a run;
and slices of a buffer taken apart from the front. -/

namespace Sys2Proof.Machine

/-! ### Runs -/

@[simp] theorem runWith_zero (P : Params) (s : State) : runWith P 0 s = .next s := rfl

theorem runWith_succ_of_next {P : Params} {s t : State} (n : Nat) (h : stepWith P s = .next t) :
    runWith P (n + 1) s = runWith P n t := by
  simp only [runWith, h]

theorem runWith_add {P : Params} {m : Nat} {s t : State} (n : Nat) (h : runWith P m s = .next t) :
    runWith P (m + n) s = runWith P n t := by
  induction m generalizing s with
  | zero => cases h; rw [Nat.zero_add]
  | succ m ih =>
    cases hstep : stepWith P s with
    | next u =>
      rw [runWith_succ_of_next m hstep] at h
      rw [Nat.succ_add, runWith_succ_of_next (m + n) hstep, ih h]
    | fault r => simp [runWith, hstep] at h
    | refused r => simp [runWith, hstep] at h

/-- Some number of steps leads from `s` to `t`. -/
def Reaches (P : Params) (s t : State) : Prop :=
  ∃ n, runWith P n s = .next t

theorem Reaches.refl (P : Params) (s : State) : Reaches P s s := ⟨0, rfl⟩

theorem Reaches.trans {P : Params} {s t u : State} (h : Reaches P s t) (h' : Reaches P t u) : Reaches P s u := by
  obtain ⟨m, hm⟩ := h
  obtain ⟨n, hn⟩ := h'
  exact ⟨m + n, (runWith_add n hm).trans hn⟩

/-! ### A silent tape -/

theorem stepWith_silent (P : Params) (s : State) (hi : s.inputs = []) : stepWith P s = coreStep P s := by
  simp only [stepWith, hi]

theorem Reaches.step {P : Params} {s t : State} (hi : s.inputs = []) (h : coreStep P s = .next t) : Reaches P s t :=
  ⟨1, runWith_succ_of_next 0 ((stepWith_silent P s hi).trans h)⟩

theorem Reaches.head {P : Params} {s t u : State} (hi : s.inputs = []) (h : coreStep P s = .next t)
    (htu : Reaches P t u) : Reaches P s u :=
  (Reaches.step hi h).trans htu

@[simp] theorem detectAdvance_inputs (s : State) : (detectAdvance s).inputs = s.inputs := by
  unfold detectAdvance
  split <;> rfl

@[simp] theorem runSample_inputs (s : State) : (runSample s).inputs = s.inputs := by
  unfold runSample
  split <;> rfl

@[simp] theorem endRun_inputs (P : Params) (s : State) : (endRun P s).inputs = s.inputs := by
  change (emitInterval s).inputs = s.inputs
  unfold emitInterval
  split <;> rfl

@[simp] theorem State.enterDecode_inputs (w : Symbol) (s : State) : (s.enterDecode w).inputs = s.inputs := by
  obtain ⟨-, h⟩ | ⟨-, -, h⟩ | ⟨-, -, h⟩ := s.enterDecode_cases w <;> simp [h]

@[simp] theorem State.takeSymbol_inputs (w : Symbol) (s : State) : (s.takeSymbol w).inputs = s.inputs := by
  obtain ⟨-, h⟩ | ⟨-, -, h⟩ | ⟨-, -, -, h⟩ | ⟨-, -, -, h⟩ := s.takeSymbol_cases w <;>
    simp [h, State.takeData]

/-- The core takes nothing off the tape. -/
theorem CoreMove.inputs_eq {P : Params} {s t : State} (h : CoreMove P s t) : t.inputs = s.inputs := by
  cases h with
  | runSampled => simp
  | runEnds => simp
  | sampleSkipped => simp
  | decodeBegins => simp
  | symbolTaken => simp
  | _ => rfl

theorem runWith_inputs_nil {P : Params} {n : Nat} {s t : State} (hi : s.inputs = []) (h : runWith P n s = .next t) :
    t.inputs = [] := by
  induction n generalizing s with
  | zero => cases h; exact hi
  | succ n ih =>
    cases hstep : coreStep P s with
    | next u =>
      rw [runWith_succ_of_next n ((stepWith_silent P s hi).trans hstep)] at h
      exact ih ((coreStep_cases P s u hstep).inputs_eq.trans hi) h
    | fault r => simp [runWith, stepWith_silent P s hi, hstep] at h
    | refused r => simp [runWith, stepWith_silent P s hi, hstep] at h

/-- R323: an idle core with a silent outside stays as it is. -/
theorem runWith_idle (P : Params) (n : Nat) (s : State) (hi : s.inputs = []) (hp : s.phase = .idle) :
    runWith P n s = .next s := by
  have hstep : stepWith P s = .next s := by
    rw [stepWith_silent P s hi]
    cases hw : s.waitBlk with
    | true => exact coreStep_waiting P s hw
    | false => exact coreStep_idle P s hw hp
  induction n with
  | zero => rfl
  | succ n ih => rw [runWith_succ_of_next n hstep, ih]

/-- Of two idle states on one silent run the later one is the earlier one. -/
theorem idle_of_run_unique {P : Params} {m n : Nat} {s t u : State} (hi : s.inputs = [])
    (ht : runWith P m s = .next t) (htp : t.phase = .idle) (hu : runWith P n s = .next u) (hup : u.phase = .idle) :
    t = u := by
  wlog hmn : m ≤ n generalizing m n t u
  · exact (this hu hup ht htp (Nat.le_of_not_le hmn)).symm
  have hrest := runWith_add (n - m) ht
  rw [Nat.add_sub_cancel' hmn, hu, runWith_idle P _ t (runWith_inputs_nil hi ht) htp] at hrest
  simpa using hrest.symm

/-! ### The outcome of a silent run -/

theorem EndsWith.of_reaches {P : Params} {s t : State} {c : ResultCode} {text : List Byte} (h : Reaches P s t)
    (ht : EndsWith P t c text) : EndsWith P s c text := by
  obtain ⟨m, hm⟩ := h
  obtain ⟨n, u, hn, hu⟩ := ht
  exact ⟨m + n, u, (runWith_add n hm).trans hn, hu⟩

/-- An invocation has one outcome and one text. -/
theorem EndsWith.unique {P : Params} {s : State} {c c' : ResultCode} {text text' : List Byte} (hi : s.inputs = [])
    (h : EndsWith P s c text) (h' : EndsWith P s c' text') : c = c' ∧ text = text' := by
  obtain ⟨m, t, ht, htp, -, hc, -, htext⟩ := h
  obtain ⟨n, u, hu, hup, -, hc', -, htext'⟩ := h'
  obtain rfl := idle_of_run_unique hi ht htp hu hup
  exact ⟨hc.symm.trans hc', htext.symm.trans htext'⟩

/-- A core step that raises an outcome ends the run with it. -/
theorem EndsWith.of_raise {P : Params} {s u : State} {c : ResultCode} (hi : s.inputs = [])
    (h : coreStep P s = .next (u.raise c)) :
    EndsWith P s c (if c = .ok then Buffer.slice u.out 0 u.outLen else []) := by
  refine ⟨1, u.raise c, runWith_succ_of_next 0 ((stepWith_silent P s hi).trans h), rfl, rfl, rfl, ?_, ?_⟩
  · by_cases hc : c = .ok <;> simp [hc]
  · by_cases hc : c = .ok <;> simp [hc, Buffer.slice]

/-! ### Slices from the front -/

section Slices

variable {α : Type} [Inhabited α]

@[simp] theorem Buffer.slice_zero (b : Buffer α) (base : Nat) : Buffer.slice b base 0 = [] := rfl

theorem Buffer.slice_add (b : Buffer α) (base m n : Nat) :
    Buffer.slice b base (m + n) = Buffer.slice b base m ++ Buffer.slice b (base + m) n := by
  induction n with
  | zero => simp
  | succ n ih => rw [← Nat.add_assoc, slice_succ, ih, slice_succ, List.append_assoc, Nat.add_assoc]

theorem Buffer.slice_one (b : Buffer α) (base : Nat) : Buffer.slice b base 1 = [Buffer.read b base] := rfl

/-- The buffer holds the list `xs` from the index `base` on. -/
def Buffer.Holds (b : Buffer α) (base : Nat) (xs : List α) : Prop :=
  Buffer.slice b base xs.length = xs

theorem Buffer.holds_append (b : Buffer α) (base : Nat) (xs ys : List α) :
    Buffer.Holds b base (xs ++ ys) ↔ Buffer.Holds b base xs ∧ Buffer.Holds b (base + xs.length) ys := by
  unfold Holds
  rw [List.length_append, slice_add]
  refine ⟨fun h => List.append_inj h (slice_length ..), fun ⟨hxs, hys⟩ => ?_⟩
  rw [hxs, hys]

theorem Buffer.holds_cons (b : Buffer α) (base : Nat) (x : α) (xs : List α) :
    Buffer.Holds b base (x :: xs) ↔ Buffer.read b base = x ∧ Buffer.Holds b (base + 1) xs := by
  rw [← List.singleton_append, holds_append]
  simp [Holds, slice_one]

theorem Buffer.Holds.read {b : Buffer α} {base : Nat} {xs : List α} (h : Buffer.Holds b base xs) (k : Nat)
    (hk : k < xs.length) : Buffer.read b (base + k) = xs[k] := by
  rw [← slice_getElem b base xs.length k (by simpa using hk)]
  exact List.getElem_of_eq h _

/-- Appending at the end of what a buffer holds. -/
theorem Buffer.Holds.write_end [DecidableEq α] {b : Buffer α} {n : Nat} {xs : List α} (h : Buffer.Holds b 0 xs)
    (hn : n = xs.length) (x : α) : Buffer.Holds (Buffer.write b n x) 0 (xs ++ [x]) := by
  subst hn
  unfold Holds at *
  rw [List.length_append, List.length_singleton, slice_write_end, h]

end Slices

end Sys2Proof.Machine
end

section
/-! PROOFS. The two code spaces (R109, R110, R126), the step that runs a word or a command, and the word that the core
reads next. -/

namespace Sys2Proof.Machine

/-! ### The tables of the two code spaces -/

theorem decodeCommand_encode (i : Instr) (hi : spaceOf i = .command) : decodeCommand ((encode i).setWidth 2) = i := by
  cases i <;> revert hi <;> decide

/-- The word of an instruction has no bit above its space, instruction by instruction. -/
theorem encode_toNat_lt (i : Instr) : (encode i).toNat < (if spaceOf i = .symbol then 32 else 4) := by
  cases i <;> decide

theorem spaceOf_decodeSymbol (w : Symbol) : spaceOf (decodeSymbol w) = .symbol := by
  revert w
  decide

theorem encode_decodeSymbol (w : Symbol) : encode (decodeSymbol w) = w.setWidth 8 := by
  revert w
  decide

theorem spaceOf_decodeCommand (c : Command) : spaceOf (decodeCommand c) = .command := by
  revert c
  decide

theorem encode_decodeCommand (c : Command) : encode (decodeCommand c) = c.setWidth 8 := by
  revert c
  decide

/-- Cutting a unit to a width that holds it loses nothing. -/
theorem setWidth_setWidth_of_lt (b : Byte) (n : Nat) (hb : b.toNat < 2 ^ n) :
    (b.setWidth n).setWidth 8 = b := by
  refine BitVec.eq_of_toNat_eq ?_
  rw [BitVec.toNat_setWidth, BitVec.toNat_setWidth, Nat.mod_eq_of_lt hb, Nat.mod_eq_of_lt b.isLt]

theorem decode_symbol_of_lt (b : Byte) (hb : b.toNat < 32) : decode .symbol b = .ok (decodeSymbol (b.setWidth 5)) :=
  if_pos hb

theorem decode_symbol_of_le (b : Byte) (hb : 32 ≤ b.toNat) : decode .symbol b = .error .symbolWordTooWide :=
  if_neg (Nat.not_lt.mpr hb)

theorem decode_command_of_lt (b : Byte) (hb : b.toNat < 4) : decode .command b = .ok (decodeCommand (b.setWidth 2)) :=
  if_pos hb

theorem decode_command_of_le (b : Byte) (hb : 4 ≤ b.toNat) : decode .command b = .error .commandCodeTooWide :=
  if_neg (Nat.not_lt.mpr hb)

theorem decode_encode (i : Instr) : decode (spaceOf i) (encode i) = .ok i := by
  have hlt := encode_toNat_lt i
  cases hs : spaceOf i with
  | symbol => rw [decode_symbol_of_lt _ (by simpa [hs] using hlt), decodeSymbol_encode i hs]
  | command => rw [decode_command_of_lt _ (by simpa [hs] using hlt), decodeCommand_encode i hs]

/-- A unit that decodes lies in its space, and the table's row read back is the unit. -/
theorem encode_of_decode (sp : Space) (b : Byte) (i : Instr) (h : decode sp b = .ok i) :
    spaceOf i = sp ∧ encode i = b := by
  cases sp with
  | symbol =>
    obtain hb | hb := Nat.lt_or_ge b.toNat 32
    · obtain rfl : decodeSymbol (b.setWidth 5) = i := by simpa [decode_symbol_of_lt b hb] using h
      exact ⟨spaceOf_decodeSymbol _, (encode_decodeSymbol _).trans (setWidth_setWidth_of_lt b 5 hb)⟩
    · simp [decode_symbol_of_le b hb] at h
  | command =>
    obtain hb | hb := Nat.lt_or_ge b.toNat 4
    · obtain rfl : decodeCommand (b.setWidth 2) = i := by simpa [decode_command_of_lt b hb] using h
      exact ⟨spaceOf_decodeCommand _, (encode_decodeCommand _).trans (setWidth_setWidth_of_lt b 2 hb)⟩
    · simp [decode_command_of_le b hb] at h

/-- Settles O1: both directions of the round trip, and the two rejections by width. -/
theorem codingIsExact : Obligations.CodingIsExact :=
  ⟨decode_encode, encode_of_decode, decode_symbol_of_le, decode_command_of_le⟩

/-- Settles O2: seven entries of the tables, looked up. -/
theorem writtenWordsDecode : Obligations.WrittenWordsDecode := by
  unfold Obligations.WrittenWordsDecode
  decide

/-! ### What the step runs -/

theorem stepWith_command (P : Params) (s : State) (c : Command) (rest : List Move)
    (hin : s.inputs = .command c :: rest) : stepWith P s = exec (decodeCommand c) { s with inputs := rest } := by
  simp only [stepWith, hin]

theorem stepWith_core (P : Params) (s : State) (rest : List Move) (hin : s.inputs = .core :: rest) :
    stepWith P s = coreStep P { s with inputs := rest } := by
  simp only [stepWith, hin]

/-- Settles O6: `stepWith_command`, at the given parameters and at the default ones. -/
theorem stepRunsTheCommand : Obligations.StepRunsTheCommand :=
  fun P c rest s hin => ⟨stepWith_command P s c rest hin, stepWith_command Config.params s c rest hin⟩

/-- Settles O7: both ways the core gets its turn lead to `coreStep`, which runs the word it reads (`coreStep_word`). -/
theorem stepRunsTheSymbolWord : Obligations.StepRunsTheSymbolWord := by
  refine fun P w s => ⟨fun hin hw => ?silent, fun rest hin hw => ?turn⟩
  case silent =>
    have hrun (Q : Params) : stepWith Q s = exec (decodeSymbol w) s :=
      (stepWith_silent Q s hin).trans (coreStep_word Q s w hw)
    exact ⟨hrun P, hrun Config.params⟩
  case turn =>
    have hrun (Q : Params) : stepWith Q s = exec (decodeSymbol w) { s with inputs := rest } :=
      (stepWith_core Q s rest hin).trans (coreStep_word Q _ w hw)
    exact ⟨hrun P, hrun Config.params⟩

/-! ### The word the core reads -/

theorem getLsbD_wordOfBits (b : Nat → Bool) (k : Nat) (hk : k < 5) :
    (wordOfBits (b 0) (b 1) (b 2) (b 3) (b 4)).getLsbD k = b k := by
  simp only [wordOfBits, BitVec.getLsbD_append]
  interval_cases k <;> simp

theorem fetchWord_framer (s : State) (hw : s.waitBlk = false) (hp : s.phase = .frame) (he : s.entered = true)
    (hn : s.frK + 5 ≤ s.bitCnt) : fetchWord s = some (candidate s) := by
  simp [fetchWord, symbolReader, hw, hp, he, tooFewBits, Nat.not_lt.mpr hn]

theorem fetchWord_decoderEntry (s : State) (hw : s.waitBlk = false) (hp : s.phase = .decode) (he : s.entered = false)
    (hn : 0 < s.symCnt) : fetchWord s = some (Buffer.read s.syms 0) := by
  simp [fetchWord, symbolReader, hw, hp, he, hn.ne']

theorem fetchWord_decoderBody (s : State) (hw : s.waitBlk = false) (hp : s.phase = .decode) (he : s.entered = true)
    (hn : s.decJ < s.symCnt) : fetchWord s = some (decodedSym s s.decJ) := by
  simp [fetchWord, symbolReader, hw, hp, he, Nat.not_le.mpr hn]

theorem decodedSym_forward (s : State) (i : Nat) (hd : s.dir = false) : decodedSym s i = Buffer.read s.syms i := by
  simp [decodedSym, hd]

/-- Settles O8: one equation of `fetchWord` per reader; the candidate bit by bit, the body symbol by direction. -/
theorem wordTheCoreReads : Obligations.WordTheCoreReads := by
  refine fun s hw => ⟨fun hp he hn => ?framer, fetchWord_decoderEntry s hw, fun hp he hn hd => ?forward,
    fun hp he hn hd => ?reversed⟩
  case framer =>
    exact ⟨candidate s, fetchWord_framer s hw hp he hn, getLsbD_wordOfBits fun k => Buffer.read s.bits (s.frK + k)⟩
  case forward => rw [fetchWord_decoderBody s hw hp he hn, decodedSym_forward s _ hd]
  case reversed => rw [fetchWord_decoderBody s hw hp he hn, decodedSym_reversed s _ hd]

/-! ### The frame of START -/

/-- Settles O10: an accepted START is `State.startInvocation`, a record update that names none of these fields. -/
theorem startKeepsTheRest : Obligations.StartKeepsTheRest := by
  intro s t hp h
  obtain rfl : s.startInvocation = t := by simpa [exec_start_idle s hp] using h
  simp

/-! ### Words that end framing, and words no run meets -/

theorem exec_framer_invalid (i : Instr) (s : State) (hi : i.mayStandInSyms = false) (hs : spaceOf i = .symbol)
    (hp : s.phase = .frame) (he : s.entered = true) : exec i s = .next (s.handOff .decode) := by
  have heven : oddParity ((encode i).setWidth 5) = false := by
    rw [← mayStandInSyms_decodeSymbol, decodeSymbol_encode i hs, hi]
  rw [← State.frameCandidate_even _ s heven, ← exec_symbolWord_framer _ s hp he, decodeSymbol_encode i hs]

/-- Settles O17: each listed instruction is a symbol word that may not stand in `SYMS`, so its step is the hand-off. -/
theorem invalidWordsEndFraming : Obligations.InvalidWordsEndFraming := by
  intro i hi s hp he
  have hrow : i.mayStandInSyms = false ∧ spaceOf i = .symbol := by
    revert i
    decide
  exact exec_framer_invalid i s hrow.1 hrow.2 hp he

theorem symbolReader_nobody (s : State) (hframe : s.phase ≠ .frame ∨ s.entered = false) (hdecode : s.phase ≠ .decode) :
    symbolReader s = .nobody := by
  unfold symbolReader
  cases hp : s.phase <;> cases he : s.entered <;> simp_all

/-- Settles O18: `exec_symbolWord` at the decoder's entry, in its body and where nobody reads; what the decoder does
never looks at the parity. -/
theorem wordsNoRunMeets : Obligations.WordsNoRunMeets := by
  refine ⟨fun w s _ hp => ⟨exec_symbolWord_entry w s hp, exec_symbolWord_body w s hp⟩, fun w s hframe hdecode => ?_⟩
  rw [exec_symbolWord, symbolReader_nobody s hframe hdecode]

end Sys2Proof.Machine
end

section
/-! PROOFS. The comparisons at the default factors (R43, R156, R160, R181 to R184, R203), deliveries (R75 to R77), the
moves that the model refuses, and the event block (R159). -/

namespace Sys2Proof.Machine

/-! ### The comparisons at the default factors -/

theorem isActive_default (p sw : Nat) : isActive Config.params p sw = true ↔ 8 * p > 7 * sw := by
  have htest : isActive Config.params p sw = true ↔ 7 * sw < p * (2 * 4) := decide_eq_true_iff
  rw [htest]
  omega

theorem isQuietChunk_default (c sw : Nat) : isQuietChunk Config.params c sw = true ↔ 16 * c < 7 * sw := by
  have htest : isQuietChunk Config.params c sw = true ↔ c * (2 * 2 * 4) < 1 * 7 * sw := decide_eq_true_iff
  rw [htest]
  omega

theorem isLong_default (x sc : Nat) : isLong Config.params x sc = true ↔ 16 * x > 3 * sc := by
  have htest : isLong Config.params x sc = true ↔ 3 * sc < x * (2 * 4 * 2) := decide_eq_true_iff
  rw [htest]
  omega

theorem aboveThr_default (s : State) : aboveThr Config.params s = true ↔ 10 * signedSample s > (s.thr : Int) :=
  decide_eq_true_iff

/-- Settles O19: one lemma per comparison; the two thresholds are their definitions at the default numerators and
denominators. -/
theorem defaultComparisons : Obligations.DefaultComparisons :=
  ⟨isActive_default, isQuietChunk_default, isLong_default, aboveThr_default, fun _ => ⟨rfl, rfl⟩⟩

/-! ### Deliveries -/

theorem deliverStep_granted (P : Params) (bytes : List Byte) (s : State) (hw : s.waitBlk = true)
    (hl : bytes.length = 2 * P.blockN) : deliverStep P bytes s = .next (s.takeBlock (samplesOfBytes bytes)) := by
  simp [deliverStep, hw, Params.deliveryWellFormed, hl]

theorem deliverStep_unrequested (P : Params) (bytes : List Byte) (s : State) (hw : s.waitBlk = false) :
    deliverStep P bytes s = .refused .deliveryWithoutRequest := by
  simp [deliverStep, hw]

theorem deliverStep_wrongLength (P : Params) (bytes : List Byte) (s : State) (hw : s.waitBlk = true)
    (hl : bytes.length ≠ 2 * P.blockN) : deliverStep P bytes s = .refused .deliveryLength := by
  simp [deliverStep, hw, Params.deliveryWellFormed, hl]

/-- R323 and R75: the core that waits or idles takes no step. -/
theorem coreStep_disabled (P : Params) (s : State) (h : s.waitBlk = true ∨ s.phase = .idle) :
    coreStep P s = .next s := by
  cases hw : s.waitBlk with
  | true => exact coreStep_waiting P s hw
  | false => exact coreStep_idle P s hw (h.resolve_left (by simp [hw]))

/-- Settles O21: `coreStep_disabled`, and a granted delivery as one block write of the samples at 0. -/
theorem deliveryFillsTheBlock : Obligations.DeliveryFillsTheBlock := by
  refine ⟨coreStep_disabled, fun P s hw bytes rest hin hl => ?_⟩
  have hlen := samplesOfBytes_length P.blockN bytes hl
  refine ⟨_, (stepWith_port P s (.deliver bytes) rest hin).trans (deliverStep_granted P bytes _ hw hl), rfl, rfl, rfl,
    fun k hk => ?inside, fun k hk => ?outside, rfl⟩
  case inside =>
    have hread := Buffer.read_writeList_inside s.blk 0 (samplesOfBytes bytes) k (hlen ▸ hk)
    rw [Nat.zero_add, samplesOfBytes_getElem P.blockN bytes hl] at hread
    exact hread
  case outside =>
    exact Buffer.read_writeList_outside s.blk 0 (samplesOfBytes bytes) k (.inr (by simpa [hlen] using hk))

/-! ### Refusals -/

theorem exec_command_not_refused (c : Command) (s : State) (r : Refusal) : exec (decodeCommand c) s ≠ .refused r := by
  have hc : decodeCommand c = .nop ∨ decodeCommand c = .start ∨ decodeCommand c = .cancel ∨
      decodeCommand c = .reservedCmd := by
    revert c
    decide
  obtain hc | hc | hc | hc := hc <;> rw [hc]
  · simp
  · by_cases hp : s.phase = .idle <;> simp [hp]
  · by_cases hp : s.phase = .prime ∨ s.phase = .scan
    · simp [hp]
    · obtain ⟨hprime, hscan⟩ := not_or.mp hp
      simp [hprime, hscan]
  · simp

theorem exec_symbolWord_not_refused (w : Symbol) (s : State) (r : Refusal) : exec (decodeSymbol w) s ≠ .refused r := by
  rw [exec_symbolWord]
  cases symbolReader s <;> simp

theorem detectSample_not_refused (P : Params) (s : State) (r : Refusal) : detectSample P s ≠ .refused r := by
  unfold detectSample
  split_ifs <;> simp

theorem primeStep_not_refused (P : Params) (s : State) (r : Refusal) : primeStep P s ≠ .refused r := by
  unfold primeStep
  split_ifs <;> simp

theorem detectStep_not_refused (P : Params) (s : State) (r : Refusal) : detectStep P s ≠ .refused r := by
  unfold detectStep
  split_ifs
  · exact detectSample_not_refused P s r
  · simp
  · simp

/-- The core refuses nothing: only moves at the ports can breach a contract. -/
theorem coreStep_not_refused (P : Params) (s : State) (r : Refusal) : coreStep P s ≠ .refused r := by
  cases hf : fetchWord s with
  | some w => rw [coreStep_word P s w hf]; exact exec_symbolWord_not_refused w s r
  | none =>
    rw [coreStep_stage P s hf]
    unfold stageStep
    split
    · simp
    · split
      · simp
      · split
        · exact primeStep_not_refused P s r
        · simp
      · split <;> simp
      · exact detectStep_not_refused P s r
      all_goals simp

/-- The moves at a port that are refused: deliveries outside the contract and addresses that the port cannot carry. -/
theorem portStep_refused_cases (P : Params) (m : PortMove) (s : State) (r : Refusal) (h : portStep P m s = .refused r) :
    (∃ bytes, m = .deliver bytes ∧ (s.waitBlk = false ∨ bytes.length ≠ 2 * P.blockN)) ∨
    ∃ k w, m = .readOut k ∧ indexWidth P = some w ∧ 2 ^ w ≤ k := by
  cases m with
  | deliver bytes =>
    refine .inl ⟨bytes, rfl, ?_⟩
    by_contra hgranted
    simp only [not_or, Bool.not_eq_false, ne_eq, not_not] at hgranted
    simp [portStep, deliverStep_granted P bytes s hgranted.1 hgranted.2] at h
  | readOut k =>
    refine .inr ⟨k, ?_⟩
    by_contra hfits
    have hk : indexFits P k = true := by
      refine (indexFits_eq_true_iff P k).mpr fun w hw => ?_
      by_contra hlt
      exact hfits ⟨w, rfl, hw, Nat.le_of_not_lt hlt⟩
    simp [portStep, readOutMove_of_fits P k s hk] at h
  | reset => cases h
  | readLen => cases h
  | readStatus =>
    simp only [portStep, readStatusStep] at h
    split at h <;> cases h

theorem readOutMove_of_not_fits (P : Params) (k w : Nat) (s : State) (hw : indexWidth P = some w) (hk : 2 ^ w ≤ k) :
    readOutMove P k s = .refused .addressWidth := by
  simp [readOutMove, indexFits, hw, Nat.not_lt.mpr hk]

/-- Settles O22: the core and the commands refuse nothing, `portStep_refused_cases` lists the moves that are refused, and
each of those has its equation. -/
theorem onlyContractBreachesAreRefused : Obligations.OnlyContractBreachesAreRefused := by
  refine ⟨fun P s r h => ?only, fun P s bytes rest hin => ?deliveries, fun P s k w rest hin hw hk => ?addresses⟩
  case only =>
    match hin : s.inputs with
    | [] => exact absurd (stepWith_silent P s hin ▸ h) (coreStep_not_refused P s r)
    | .core :: rest => exact absurd (stepWith_core P s rest hin ▸ h) (coreStep_not_refused P _ r)
    | .command c :: rest => exact absurd (stepWith_command P s c rest hin ▸ h) (exec_command_not_refused c _ r)
    | .port m :: rest =>
      obtain ⟨bytes, rfl, hbreach⟩ | ⟨k, w, rfl, hw, hk⟩ :=
        portStep_refused_cases P m _ r (stepWith_port P s m rest hin ▸ h)
      · exact .inl ⟨bytes, rest, rfl, hbreach⟩
      · exact .inr ⟨k, rest, w, rfl, hw, hk⟩
  case deliveries =>
    rw [stepWith_port P s (.deliver bytes) rest hin]
    exact ⟨deliverStep_unrequested P bytes { s with inputs := rest },
      deliverStep_wrongLength P bytes { s with inputs := rest }⟩
  case addresses =>
    rw [stepWith_port P s (.readOut k) rest hin]
    exact readOutMove_of_not_fits P k w _ hw hk

/-! ### The event block (R159) -/

theorem scanStep_event (P : Params) (s : State) (ha : isActive P (ptp (rawBlock P s)) s.pwin.sum = false)
    (hn : 2 ≤ s.actCnt) : scanStep P s = eventStep P s := by
  have ha : isActive P (blockPower P s) s.windowSum = false := ha
  simp [scanStep, ha, show s.actCnt ≠ 0 by omega, show s.actCnt ≠ 1 by omega]

/-- Settles O26: the step is `eventStep`, one block write of the waveform at 0; the rest by the record it is. -/
theorem eventBlock : Obligations.EventBlock := by
  intro P s hp hw hb hn ha
  have hstep : coreStep P s = .next (eventStep P s) := by
    rw [coreStep_scanBlock P s hp hw hb, scanStep_event P s ha hn]
  refine ⟨_, hstep, rfl, rfl, rfl, rfl, Buffer.slice_writeList s.wave 0 (eventWave P s), fun k hk => ?_, rfl⟩
  exact Buffer.read_writeList_outside s.wave 0 _ k (.inr ((Nat.zero_add _).trans_le hk))

end Sys2Proof.Machine
end

section
/-! PROOFS. Entry into DETECT and the sample steps away from the last sample (R180 to R186). -/

namespace Sys2Proof.Machine

/-- At the entry step `entered` is clear already, so the hand-off moves only the phase. -/
theorem detectEmpty_of_not_entered (s : State) (he : s.entered = false) :
    detectEmpty s = { s with ivlCnt := 0, phase := .recover } := by
  simp [detectEmpty, State.handOff, he]

/-- Settles O30: the two entry steps; the second sets the registers that `detectEntry` lists. -/
theorem detectorEntry : Obligations.DetectorEntry := by
  intro P s hp he hw
  refine ⟨fun hn => ?_, coreStep_detect_entry P s hw hp he⟩
  rw [coreStep_detect_empty P s hw hp he hn, detectEmpty_of_not_entered s he]

theorem signedSample_eq_mul (s : State) : signedSample s = (if s.sign then -1 else 1) * Buffer.read s.wave s.detJ := by
  cases hs : s.sign <;> simp [signedSample, hs]

theorem runSample_of_le (s : State) (h : signedSample s ≤ s.peak) : runSample s = s :=
  if_neg (Int.not_lt.mpr h)

theorem runSample_of_lt (s : State) (h : (s.peak : Int) < signedSample s) :
    runSample s = { s with peak := (signedSample s).toNat, peakIdx := s.detJ } :=
  if_pos h

theorem detectAdvance_inside (s : State) (h : s.detJ + 1 ≠ s.waveLen) :
    detectAdvance s = { s with detJ := s.detJ + 1 } :=
  if_neg h

theorem emitInterval_first (s : State) (hv : s.havePrev = false) : emitInterval s = s := by
  simp [emitInterval, hv]

theorem emitInterval_next (s : State) (hv : s.havePrev = true) :
    emitInterval s = s.appendIvl (s.peakIdx - s.prevIdx) := by
  simp [emitInterval, hv]

/-- What the end of a run does to `IVL`: nothing at the first transition, one more interval at every later one. -/
theorem emitInterval_spec (s : State) :
    (s.havePrev = false → (emitInterval s).ivlCnt = s.ivlCnt ∧
      ∀ k, Buffer.read (emitInterval s).ivl k = Buffer.read s.ivl k) ∧
    (s.havePrev = true → (emitInterval s).ivlCnt = s.ivlCnt + 1 ∧
      Buffer.read (emitInterval s).ivl s.ivlCnt = s.peakIdx - s.prevIdx ∧
      ∀ k, k ≠ s.ivlCnt → Buffer.read (emitInterval s).ivl k = Buffer.read s.ivl k) ∧
    { emitInterval s with ivlCnt := s.ivlCnt, ivl := s.ivl } = s := by
  cases hv : s.havePrev with
  | false => simp [emitInterval_first s hv]
  | true =>
    rw [emitInterval_next s hv]
    exact ⟨nofun, fun _ => ⟨rfl, Buffer.read_write_same .., fun k => Buffer.read_write_other s.ivl s.ivlCnt k _⟩, rfl⟩

/-- The end of a run is the interval's output and six registers. -/
theorem endRun_spec (P : Params) (s : State) :
    (endRun P s).ivl = (emitInterval s).ivl ∧ (endRun P s).ivlCnt = (emitInterval s).ivlCnt ∧
    { endRun P s with
      prevIdx := s.prevIdx, havePrev := s.havePrev, sign := s.sign, peak := s.peak, thr := s.thr
      ivlCnt := s.ivlCnt, ivl := s.ivl } = s := by
  refine ⟨rfl, rfl, ?_⟩
  cases hv : s.havePrev with
  | false => simp [endRun, emitInterval_first s hv, ← hv]
  | true => simp [endRun, emitInterval_next s hv, State.appendIvl, ← hv]

/-- R182 in the terms of the statement: `v` is the signed sample, and the scale the product of the denominators. -/
theorem aboveThr_eq_true_iff (P : Params) (s : State) :
    aboveThr P s = true ↔ (s.thr : Int) < (P.initFactor.den * P.nextFactor.den : Nat) * signedSample s := by
  simp [aboveThr, thrScale]

theorem aboveThr_eq_false_iff (P : Params) (s : State) :
    aboveThr P s = false ↔ (P.initFactor.den * P.nextFactor.den : Nat) * signedSample s ≤ s.thr := by
  rw [← Bool.not_eq_true, aboveThr_eq_true_iff, Int.not_lt]

/-- Settles O31: above the threshold the run is extended or its peak moves; at or below it an open run ends, with the
interval as `emitInterval_spec` says, or nothing happens; then the index moves. -/
theorem detectorSample : Obligations.DetectorSample := by
  intro P s v hp he hw hlast hv
  obtain rfl : signedSample s = v := (signedSample_eq_mul s).trans hv.symm
  have hn : s.detJ < s.waveLen := by omega
  rw [← aboveThr_eq_true_iff, ← aboveThr_eq_false_iff]
  refine ⟨fun ha hle => ?extended, fun ha hlt => ?newPeak, fun ha hk hi => ?ended, fun ha hk => ?quiet⟩
  case extended =>
    rw [coreStep_detect_run P s hw hp he hn ha, runSample_of_le s hle, detectAdvance_inside s hlast.ne]
  case newPeak =>
    rw [coreStep_detect_run P s hw hp he hn ha, detectAdvance_inside _ (by simpa using hlast.ne), runSample_of_lt s hlt]
    exact ⟨_, rfl, Int.toNat_of_nonneg (by omega), rfl, rfl, rfl⟩
  case ended =>
    obtain ⟨hfirst, hnext, -⟩ := emitInterval_spec s
    obtain ⟨-, -, hframe⟩ := endRun_spec P s
    rw [coreStep_detect_end P s hw hp he hn ha hk hi, detectAdvance_inside _ (by simpa using hlast.ne)]
    exact ⟨_, rfl, rfl, rfl, rfl, rfl, rfl, by simp, hfirst, hnext,
      congrArg (fun u : State => { u with detJ := s.detJ }) hframe⟩
  case quiet =>
    rw [coreStep_detect_quiet P s hw hp he hn ha hk, detectAdvance_inside s hlast.ne]

end Sys2Proof.Machine
end

section
/-! PROOFS. The Bit Recoverer over a whole buffer (R119, R202 to R206): at one nominal cell the clock window never moves,
so every cell is told apart as it was encoded. -/

namespace Sys2Proof.Machine

/-! ### The long test at a steady speed -/

/-- The clock window after any number of cells of the nominal length `T`. -/
def steadyWindow (P : Params) (T : Nat) : List Nat :=
  List.replicate P.clkWin (2 * T)

theorem push_steadyWindow (P : Params) (T : Nat) (hc : 0 < P.clkWin) :
    push (steadyWindow P T) (2 * T) = steadyWindow P T := by
  unfold push steadyWindow
  rw [List.tail_replicate, ← List.replicate_succ', Nat.sub_add_cancel hc]

theorem isLong_steadyWindow (P : Params) (T x : Nat) : isLong P x (steadyWindow P T).sum = true ↔
    P.longFactor.num * (P.clkWin * (2 * T)) < x * (2 * P.clkWin * P.longFactor.den) := by
  simp [isLong, steadyWindow]

theorem isLong_two_cells (P : Params) (T : Nat) (hs : SteadyClock P) (hc : 0 < P.clkWin) (hT : 1 ≤ T) :
    isLong P (2 * T) (steadyWindow P T).sum = true := by
  rw [isLong_steadyWindow]
  calc P.longFactor.num * (P.clkWin * (2 * T))
      < 2 * P.longFactor.den * (P.clkWin * (2 * T)) := Nat.mul_lt_mul_of_pos_right hs.2 (by positivity)
    _ = 2 * T * (2 * P.clkWin * P.longFactor.den) := by ring

theorem isLong_one_cell (P : Params) (T : Nat) (hs : SteadyClock P) : isLong P T (steadyWindow P T).sum = false := by
  rw [← Bool.not_eq_true, isLong_steadyWindow, Nat.not_lt]
  calc T * (2 * P.clkWin * P.longFactor.den)
      = P.longFactor.den * (P.clkWin * (2 * T)) := by ring
    _ ≤ P.longFactor.num * (P.clkWin * (2 * T)) := Nat.mul_le_mul_right _ hs.1

/-! ### The loop -/

/-- Inside RECOVER at one nominal cell `T`: the intervals `xs` are left, the bits `bs` have been recovered. -/
structure Recovering (P : Params) (T : Nat) (s : State) (xs : List Nat) (bs : List Bool) : Prop where
  phase : s.phase = .recover
  entered : s.entered = true
  waitBlk : s.waitBlk = false
  inputs : s.inputs = []
  window : s.cwin = steadyWindow P T
  left : Buffer.Holds s.ivl (leadIn P + s.recI) xs
  count : s.ivlCnt = leadIn P + s.recI + xs.length
  recovered : Buffer.Holds s.bits 0 bs
  bitCnt : s.bitCnt = bs.length

/-- The cells of one bit give that bit back, if at least one interval follows them. -/
theorem Recovering.bit {P : Params} {T : Nat} {s : State} {b : Bool} {y : Nat} {ys : List Nat} {bs : List Bool}
    (hs : SteadyClock P) (hc : 0 < P.clkWin) (hT : 1 ≤ T) (h : Recovering P T s (cellsOfBit T b ++ y :: ys) bs) :
    ∃ t, coreStep P s = .next t ∧ Recovering P T t (y :: ys) (bs ++ [b]) := by
  have hpush := push_steadyWindow P T hc
  obtain ⟨hp, he, hw, hi, hwin, hleft, hcnt, hbits, hbc⟩ := h
  have hn : leadIn P + s.recI + 2 ≤ s.ivlCnt := by
    rw [hcnt]
    cases b <;> simp [cellsOfBit]
  have hstep := coreStep_recover_classify P s hw hp he hn
  cases b with
  | false =>
    obtain ⟨hnext, hrest⟩ := (Buffer.holds_cons _ _ (2 * T) (y :: ys)).mp hleft
    have hl : isLong P (nextInterval P s) s.cwin.sum = true := by
      rw [nextInterval, hnext, hwin]
      exact isLong_two_cells P T hs hc hT
    rw [classify_long P s hl] at hstep
    refine ⟨_, hstep, hp, he, hw, hi, ?_, hrest, ?_, hbits.write_end hbc false, ?_⟩
    · simp [longCell, nextInterval, hnext, hwin, hpush]
    · simp [longCell, hcnt, cellsOfBit]; omega
    · simp [longCell, hbc]
  | true =>
    obtain ⟨hnext, hrest⟩ := (Buffer.holds_cons _ _ T (T :: y :: ys)).mp hleft
    obtain ⟨-, hrest⟩ := (Buffer.holds_cons _ _ T (y :: ys)).mp hrest
    have hl : isLong P (nextInterval P s) s.cwin.sum = false := by
      rw [nextInterval, hnext, hwin]
      exact isLong_one_cell P T hs
    rw [classify_short P s hl] at hstep
    refine ⟨_, hstep, hp, he, hw, hi, ?_, hrest, ?_, hbits.write_end hbc true, ?_⟩
    · simp [shortCells, nextInterval, hnext, hwin, hpush]
    · simp [shortCells, hcnt, cellsOfBit]; omega
    · simp [shortCells, hbc]

/-- The one further interval is not classified: the core hands off (R206). -/
theorem Recovering.exit {P : Params} {T : Nat} {s : State} {last : Nat} {bs : List Bool}
    (h : Recovering P T s [last] bs) : ∃ t, Reaches P s t ∧ AtFrame t bs := by
  have hn : s.ivlCnt < leadIn P + s.recI + 2 := by simp [h.count]
  refine ⟨_, .step h.inputs (coreStep_recover_end P s h.waitBlk h.phase h.entered hn),
    ⟨rfl, rfl, h.waitBlk, h.inputs⟩, h.bitCnt, ?_⟩
  have hbits : Buffer.slice s.bits 0 bs.length = bs := h.recovered
  rw [← h.bitCnt] at hbits
  exact hbits

theorem Recovering.run {P : Params} {T : Nat} (hs : SteadyClock P) (hc : 0 < P.clkWin) (hT : 1 ≤ T) (last : Nat)
    (todo : List Bool) {s : State} {done : List Bool} (h : Recovering P T s (todo.flatMap (cellsOfBit T) ++ [last]) done) :
    ∃ t, Reaches P s t ∧ AtFrame t (done ++ todo) := by
  induction todo generalizing s done with
  | nil => simpa using h.exit
  | cons b todo ih =>
    rw [List.flatMap_cons, List.append_assoc] at h
    obtain ⟨y, ys, hy⟩ : ∃ y ys, todo.flatMap (cellsOfBit T) ++ [last] = y :: ys :=
      List.exists_cons_of_ne_nil (by simp)
    rw [hy] at h
    obtain ⟨t, hstep, ht⟩ := h.bit hs hc hT
    obtain ⟨u, hrun, hu⟩ := ih (hy ▸ ht)
    exact ⟨u, .head h.inputs hstep hrun, by simpa using hu⟩

/-! ### From the entry on -/

/-- The intervals beyond the seed are the cells of zeros, so the encoder's lead-in is part of the bits. -/
theorem encodeIntervals_split (T m k last : Nat) (bs : List Bool) : encodeIntervals T (m + k) last bs =
    List.replicate m (2 * T) ++ ((List.replicate k false ++ bs).flatMap (cellsOfBit T) ++ [last]) := by
  have hzeros : (List.replicate k false).flatMap (cellsOfBit T) = List.replicate k (2 * T) := by
    induction k with
    | zero => rfl
    | succ k ih => rw [List.replicate_succ, List.flatMap_cons, ih]; rfl
  simp only [encodeIntervals, List.replicate_add, List.flatMap_append, hzeros, List.append_assoc]

/-- The entry step seeds the window with the nominal cell (R202). -/
theorem recovering_of_atRecover {P : Params} {T : Nat} {s : State} {xs : List Nat}
    (h : AtRecover s (List.replicate (leadIn P) (2 * T) ++ xs)) :
    ∃ t, Reaches P s t ∧ Recovering P T t xs [] := by
  obtain ⟨⟨hp, he, hw, hi⟩, hcnt, hivl⟩ := h
  rw [hcnt] at hivl
  obtain ⟨hlead, hrest⟩ := (Buffer.holds_append s.ivl 0 _ xs).mp hivl
  rw [leadIn, List.replicate_add] at hlead
  obtain ⟨-, hseed⟩ := (Buffer.holds_append s.ivl 0 _ _).mp hlead
  have hn : leadIn P ≤ s.ivlCnt := by simp [hcnt]
  refine ⟨_, .step hi (coreStep_recover_seed P s hw hp he hn), hp, rfl, hw, hi, ?_, ?_, ?_, rfl, rfl⟩
  · simpa [Buffer.Holds, recoverSeed, steadyWindow] using hseed
  · simpa [recoverSeed] using hrest
  · simpa [recoverSeed] using hcnt

theorem recovers_encodeIntervals {P : Params} {s : State} {T n last : Nat} {bs : List Bool} (hs : SteadyClock P)
    (hc : 0 < P.clkWin) (hT : 1 ≤ T) (hn : leadIn P ≤ n) (h : AtRecover s (encodeIntervals T n last bs)) :
    ∃ t, Reaches P s t ∧ AtFrame t (List.replicate (n - leadIn P) false ++ bs) := by
  rw [← Nat.add_sub_cancel' hn, encodeIntervals_split] at h
  obtain ⟨t, hst, ht⟩ := recovering_of_atRecover h
  obtain ⟨u, htu, hu⟩ := ht.run hs hc hT last
  exact ⟨u, hst.trans htu, by simpa using hu⟩

/-- Settles O36: the lead-in seeds the window (`recovering_of_atRecover`), and `Recovering.run` is the induction over the
bits that are left. -/
theorem steadyIntervalsRecoverTheirBits : Obligations.SteadyIntervalsRecoverTheirBits := by
  intro P s T n last bs hs hc hT hn h
  obtain ⟨t, ⟨m, hm⟩, ht⟩ := recovers_encodeIntervals hs hc hT hn h
  exact ⟨m, t, hm, ht⟩

end Sys2Proof.Machine
end

section
/-! PROOFS. The Byte Framer over a whole buffer (R118, R220 to R224): the run-out ends at the first 1 bit, each five bits
are a word, and the trailing zeros hold no valid one. -/

namespace Sys2Proof.Machine

/-! ### The bits of a word -/

theorem wordOfBits_bitsOfWord (w : Symbol) :
    wordOfBits (w.getLsbD 0) (w.getLsbD 1) (w.getLsbD 2) (w.getLsbD 3) (w.getLsbD 4) = w :=
  BitVec.eq_of_getLsbD_eq fun k hk => getLsbD_wordOfBits w.getLsbD k hk

/-- Where the bits of a word stand next, the candidate is that word. -/
theorem candidate_of_holds (s : State) (w : Symbol) (bs : List Bool)
    (h : Buffer.Holds s.bits s.frK (bitsOfWord w ++ bs)) : candidate s = w := by
  have hread (k : Nat) (hk : k < 5) : Buffer.read s.bits (s.frK + k) = w.getLsbD k := by
    have := ((Buffer.holds_append _ _ _ _).mp h).1.read k hk
    rw [this]
    simp only [bitsOfWord]
    interval_cases k <;> rfl
  have hfirst : Buffer.read s.bits s.frK = w.getLsbD 0 := hread 0 (by decide)
  rw [candidate, hfirst, hread 1 (by decide), hread 2 (by decide), hread 3 (by decide), hread 4 (by decide), wordOfBits_bitsOfWord w]

/-! ### The loop -/

/-- Inside FRAME: the bits `bs` are left, the words `ws` have been framed. -/
structure Framing (s : State) (bs : List Bool) (ws : List Symbol) : Prop where
  phase : s.phase = .frame
  entered : s.entered = true
  waitBlk : s.waitBlk = false
  inputs : s.inputs = []
  left : Buffer.Holds s.bits s.frK bs
  count : s.bitCnt = s.frK + bs.length
  framed : Buffer.Holds s.syms 0 ws
  symCnt : s.symCnt = ws.length

theorem Framing.word {P : Params} {s : State} {w : Symbol} {bs : List Bool} {ws : List Symbol}
    (h : Framing s (bitsOfWord w ++ bs) ws) (ho : oddParity w = true) :
    ∃ t, coreStep P s = .next t ∧ Framing t bs (ws ++ [w]) := by
  have hcand := candidate_of_holds s w bs h.left
  obtain ⟨hp, he, hw, hi, hleft, hcnt, hsyms, hsc⟩ := h
  obtain ⟨-, hrest⟩ := (Buffer.holds_append _ _ _ _).mp hleft
  have hstep := coreStep_frame_candidate P s hw hp he (by simp [hcnt, bitsOfWord])
  rw [hcand, State.frameCandidate_odd w s ho] at hstep
  refine ⟨_, hstep, hp, he, hw, hi, hrest, ?_, hsyms.write_end hsc w, ?_⟩
  · simp [State.acceptSymbol, hcnt, bitsOfWord]; omega
  · simp [State.acceptSymbol, hsc]

/-- What is left ends framing: fewer than five bits, or the word 0. -/
theorem Framing.exit {P : Params} {s : State} {b : Nat} {ws : List Symbol}
    (h : Framing s (List.replicate b false) ws) : ∃ t, Reaches P s t ∧ AtDecode t ws := by
  have hstep : coreStep P s = .next (s.handOff .decode) := by
    obtain hb | hb := Nat.lt_or_ge b 5
    · exact coreStep_frame_short P s h.waitBlk h.phase h.entered (by simp [h.count, hb])
    · have hzeros : List.replicate b false = bitsOfWord 0#5 ++ List.replicate (b - 5) false := by
        rw [show bitsOfWord 0#5 = List.replicate 5 false from rfl, ← List.replicate_add, Nat.add_sub_cancel' hb]
      have hcand := candidate_of_holds s 0#5 _ (hzeros ▸ h.left)
      rw [coreStep_frame_candidate P s h.waitBlk h.phase h.entered (by simp [h.count, hb]), hcand,
        State.frameCandidate_even _ s (by decide)]
  have hsyms : Buffer.slice s.syms 0 ws.length = ws := h.framed
  rw [← h.symCnt] at hsyms
  exact ⟨_, .step h.inputs hstep, ⟨rfl, rfl, h.waitBlk, h.inputs⟩, h.symCnt, hsyms⟩

theorem Framing.run {P : Params} (b : Nat) (todo : List Symbol) (hodd : ∀ w ∈ todo, oddParity w = true) {s : State}
    {done : List Symbol} (h : Framing s (todo.flatMap bitsOfWord ++ List.replicate b false) done) :
    ∃ t, Reaches P s t ∧ AtDecode t (done ++ todo) := by
  induction todo generalizing s done with
  | nil => simpa using h.exit
  | cons w todo ih =>
    rw [List.flatMap_cons, List.append_assoc] at h
    obtain ⟨t, hstep, ht⟩ := h.word (P := P) (hodd w (by simp))
    obtain ⟨u, hrun, hu⟩ := ih (fun x hx => hodd x (by simp [hx])) ht
    exact ⟨u, .head h.inputs hstep hrun, by simpa using hu⟩

/-! ### From the entry on -/

/-- Zeros before a 1 bit are skipped up to it. -/
theorem skipZeros_of_holds (b : Buffer Bool) (a n k : Nat) (bs : List Bool) (hn : a < n)
    (h : Buffer.Holds b k (List.replicate a false ++ true :: bs)) : skipZeros b n k = k + a := by
  induction a generalizing n k with
  | zero =>
    obtain ⟨n, rfl⟩ := Nat.exists_eq_succ_of_ne_zero hn.ne_bot
    exact skipZeros_of_one b n k ((Buffer.holds_cons b k true bs).mp h).1
  | succ a ih =>
    obtain ⟨n, rfl⟩ := Nat.exists_eq_succ_of_ne_zero hn.ne_bot
    obtain ⟨hzero, hrest⟩ := (Buffer.holds_cons b k false _).mp h
    rw [skipZeros_of_zero b n k hzero, ih n (k + 1) (by omega) hrest]
    omega

/-- The entry step discards the run-out in front of a word that begins with a 1 bit (R221). -/
theorem framing_of_atFrame {P : Params} {s : State} {a : Nat} {bs : List Bool}
    (h : AtFrame s (List.replicate a false ++ true :: bs)) : ∃ t, Reaches P s t ∧ Framing t (true :: bs) [] := by
  obtain ⟨⟨hp, he, hw, hi⟩, hcnt, hbits⟩ := h
  rw [hcnt] at hbits
  have hskip := skipZeros_of_holds s.bits a s.bitCnt 0 bs (by simp [hcnt]) hbits
  have hstep := coreStep_frame_entry P s hw hp he
  rw [frameStage_begins s he (by simp [hcnt])] at hstep
  refine ⟨_, .step hi hstep, hp, rfl, hw, hi, ?_, ?_, rfl, rfl⟩
  · simpa [frameEntry, hskip] using ((Buffer.holds_append s.bits 0 _ _).mp hbits).2
  · simpa [frameEntry, hskip] using hcnt

theorem frames_encodeBits {P : Params} {s : State} {a b : Nat} {w : Symbol} {ws : List Symbol}
    (hodd : ∀ x ∈ w :: ws, oddParity x = true) (hw : w.getLsbD 0 = true) (h : AtFrame s (encodeBits a b (w :: ws))) :
    ∃ t, Reaches P s t ∧ AtDecode t (w :: ws) := by
  obtain ⟨bs, hbs⟩ : ∃ bs, (w :: ws).flatMap bitsOfWord ++ List.replicate b false = true :: bs := by
    simp [List.flatMap_cons, bitsOfWord, hw]
  rw [encodeBits, List.append_assoc, hbs] at h
  obtain ⟨t, hst, ht⟩ := framing_of_atFrame (P := P) h
  obtain ⟨u, htu, hu⟩ := (hbs ▸ ht).run (P := P) b (w :: ws) hodd
  exact ⟨u, hst.trans htu, by simpa using hu⟩

/-- Settles O38: the run-out is discarded up to the first word (`framing_of_atFrame`), and `Framing.run` is the induction
over the words that are left. -/
theorem bitsFrameToTheirWords : Obligations.BitsFrameToTheirWords := by
  intro P s a b w ws hodd hw h
  obtain ⟨t, ⟨m, hm⟩, ht⟩ :=
    frames_encodeBits (P := P) (fun x hx => (oddParity_eq_true_iff x).mpr (hodd x hx)) hw h
  exact ⟨m, t, hm, ht⟩

end Sys2Proof.Machine
end

section
/-! PROOFS. The decoder over a whole sequence (R240 to R250), forward and reversed; what the encoder's words are to it
(R117), and what one flipped data bit does (R252 to R256). -/

namespace Sys2Proof.Machine

/-! ### Valid words -/

@[simp] theorem dataBits_validWord (v : BitVec 4) : dataBits (validWord v) = v := by
  revert v
  decide

theorem oddParity_validWord (v : BitVec 4) : oddParity (validWord v) = true := by
  revert v
  decide

/-- R246: forcing the parity of the accumulator makes it the valid word of its columns. -/
theorem forceParity_eq_validWord (acc : Symbol) : forceParity acc = validWord (dataBits acc) := by
  revert acc
  decide

theorem validWord_injective {u v : BitVec 4} (h : validWord u = validWord v) : u = v := by
  rw [← dataBits_validWord u, h, dataBits_validWord]

theorem dataBits_foldData (acc : Symbol) (v : BitVec 4) : dataBits (foldData acc v) = dataBits acc ^^^ v := by
  refine BitVec.eq_of_getLsbD_eq fun k hk => ?_
  simp [dataBits, foldData, hk]
  omega

/-- The character says all of the data bits. -/
theorem charOf_eq_iff (w : Symbol) (c : Byte) (hc : 0x30#8 ≤ c) : charOf w = c ↔ (dataBits w).toNat = c.toNat - 48 := by
  rw [← BitVec.toNat_inj, charOf_toNat]
  have : 48 ≤ c.toNat := hc
  omega

theorem dataBits_of_charOf_end (w : Symbol) (h : charOf w = endChar) : dataBits w = 0b1111#4 :=
  BitVec.eq_of_toNat_eq ((charOf_eq_iff w endChar (by decide)).mp h)

theorem dataBits_of_charOf_start (w : Symbol) (h : charOf w = startChar) : dataBits w = 0b1011#4 :=
  BitVec.eq_of_toNat_eq ((charOf_eq_iff w startChar (by decide)).mp h)

/-- The word that the encoder makes of a character. -/
def wordOfChar (c : Byte) : Symbol :=
  validWord (valueOfChar c)

@[simp] theorem dataBits_wordOfChar (c : Byte) : dataBits (wordOfChar c) = valueOfChar c :=
  dataBits_validWord _

/-- R106 and R241: the decoder reads a word of R109 as the character that it was made of. -/
theorem charOf_wordOfChar (c : Byte) (hlo : 0x30#8 ≤ c) (hhi : c ≤ 0x3F#8) : charOf (wordOfChar c) = c := by
  have hlo : 48 ≤ c.toNat := hlo
  have hhi : c.toNat ≤ 63 := hhi
  rw [charOf_eq_iff _ _ hlo, dataBits_wordOfChar, valueOfChar, BitVec.toNat_setWidth]
  omega

theorem DataText.map_charOf {d : List Byte} (hd : DataText d) : (d.map wordOfChar).map charOf = d := by
  rw [List.map_map]
  refine (List.map_congr_left fun c hc => ?_).trans (List.map_id' d)
  exact charOf_wordOfChar c (hd c hc).1 (BitVec.le_trans (hd c hc).2 (by decide))

theorem DataText.charOf_ne_end {d : List Byte} (hd : DataText d) : ∀ w ∈ d.map wordOfChar, charOf w ≠ endChar := by
  intro w hw hend
  obtain ⟨c, hc, rfl⟩ := List.mem_map.mp hw
  obtain ⟨hlo, hhi⟩ := hd c hc
  rw [charOf_wordOfChar c hlo (BitVec.le_trans hhi (by decide))] at hend
  subst hend
  exact absurd hhi (by decide)

/-! ### The columns of the accumulator -/

/-- The data columns of the accumulator after the words `ws`, from `v` on. -/
def columns (v : BitVec 4) (ws : List Symbol) : BitVec 4 :=
  (ws.map dataBits).foldl (fun a x => a ^^^ x) v

@[simp] theorem columns_nil (v : BitVec 4) : columns v [] = v := rfl

@[simp] theorem columns_cons (v : BitVec 4) (w : Symbol) (ws : List Symbol) :
    columns v (w :: ws) = columns (v ^^^ dataBits w) ws := rfl

theorem columns_append (v : BitVec 4) (ws xs : List Symbol) : columns v (ws ++ xs) = columns (columns v ws) xs := by
  simp [columns]

/-- What was folded in before can be read off the columns again. -/
theorem columns_injective (ws : List Symbol) {u v : BitVec 4} (h : columns u ws = columns v ws) : u = v := by
  induction ws generalizing u v with
  | nil => exact h
  | cons w ws ih => exact (BitVec.xor_left_inj _).mp (ih h)

/-! ### The track text and its words -/

theorem lrcData_trackText (d : List Byte) :
    lrcData (trackText d) = columns 0b1011#4 (d.map wordOfChar) ^^^ 0b1111#4 := by
  have hwords : (d.map wordOfChar).map dataBits = d.map valueOfChar := by simp
  simp only [lrcData, trackText, columns, hwords, List.map_cons, List.map_append, List.map_nil, List.foldl_cons,
    List.foldl_append, List.foldl_nil]
  rfl

theorem encodeText_trackText (d : List Byte) :
    encodeText (trackText d) = 0x0B#5 :: (d.map wordOfChar ++ [0x1F#5, lrcOf d]) := by
  have hstart : validWord (valueOfChar startChar) = 0x0B#5 := by decide
  have hend : validWord (valueOfChar endChar) = 0x1F#5 := by decide
  simp only [encodeText, trackText, List.map_cons, List.map_append, List.map_nil, hstart, hend, lrcOf]
  simp [wordOfChar]

theorem oddParity_encodeText (text : List Byte) : ∀ w ∈ encodeText text, oddParity w = true := by
  simp only [encodeText, List.mem_append, List.mem_map, List.mem_singleton]
  rintro w (⟨c, -, rfl⟩ | rfl) <;> exact oddParity_validWord _

/-! ### The body -/

/-- Inside DECODE: the words `ws` are left, the accumulator's columns are `v`, and `text` has been output. -/
structure Decoding (s : State) (ws : List Symbol) (v : BitVec 4) (text : List Byte) : Prop where
  phase : s.phase = .decode
  entered : s.entered = true
  waitBlk : s.waitBlk = false
  inputs : s.inputs = []
  left : ∀ k w, ws[k]? = some w → decodedSym s (s.decJ + k) = w
  count : s.symCnt = s.decJ + ws.length
  column : dataBits s.acc = v
  output : Buffer.Holds s.out 0 text
  outLen : s.outLen = text.length

theorem Decoding.step {s : State} {w : Symbol} {ws : List Symbol} {v : BitVec 4} {text : List Byte} (P : Params)
    (h : Decoding s (w :: ws) v text) : coreStep P s = .next (s.takeSymbol w) := by
  rw [coreStep_decode_body P s h.waitBlk h.phase h.entered (by simp [h.count])]
  exact congrArg (fun x => Host.Outcome.next (s.takeSymbol x)) (h.left 0 w rfl)

theorem Decoding.data {s : State} {w : Symbol} {ws : List Symbol} {v : BitVec 4} {text : List Byte} (P : Params)
    (h : Decoding s (w :: ws) v text) (hw : charOf w ≠ endChar) :
    ∃ t, coreStep P s = .next t ∧ Decoding t ws (v ^^^ dataBits w) (text ++ [charOf w]) := by
  have hstep := h.step P
  rw [s.takeSymbol_data w hw] at hstep
  obtain ⟨hp, he, hwait, hi, hleft, hcnt, hcol, hout, hlen⟩ := h
  refine ⟨_, hstep, hp, he, hwait, hi, fun k x hk => ?_, ?_, ?_, hout.write_end hlen (charOf w), ?_⟩
  · have hsym := hleft (k + 1) x hk
    rw [Nat.add_comm k 1, ← Nat.add_assoc] at hsym
    exact hsym
  · simp [State.takeData, hcnt]; omega
  · simp [State.takeData, dataBits_foldData, hcol]
  · simp [State.takeData, hlen]

theorem Decoding.run {P : Params} (ds ws : List Symbol) (hd : ∀ w ∈ ds, charOf w ≠ endChar) {s : State} {v : BitVec 4}
    {text : List Byte} (h : Decoding s (ds ++ ws) v text) :
    ∃ t, Reaches P s t ∧ Decoding t ws (columns v ds) (text ++ ds.map charOf) := by
  induction ds generalizing s v text with
  | nil => exact ⟨s, .refl P s, by simpa using h⟩
  | cons w ds ih =>
    obtain ⟨t, hstep, ht⟩ := h.data P (hd w (by simp))
    obtain ⟨u, hrun, hu⟩ := ih (fun x hx => hd x (by simp [hx])) ht
    exact ⟨u, .head h.inputs hstep hrun, by simpa using hu⟩

/-- The end sentinel with the right LRC word behind it ends in OK with the output (R245 to R247). -/
theorem Decoding.ends_ok {P : Params} {s : State} {w : Symbol} {ws : List Symbol} {v : BitVec 4} {text : List Byte}
    (h : Decoding s (w :: validWord (v ^^^ 0b1111#4) :: ws) v text) (hw : charOf w = endChar) :
    EndsWith P s .ok text := by
  obtain ⟨c, hend, hok, -⟩ := s.takeSymbol_end w hw
  have hlrc : decodedSym s (s.decJ + 1) = forceParity (foldData s.acc (dataBits w)) := by
    rw [forceParity_eq_validWord, dataBits_foldData, h.column, dataBits_of_charOf_end w hw]
    exact h.left 1 _ rfl
  obtain rfl := hok ⟨by simp [h.count], hlrc⟩
  have hends := EndsWith.of_raise h.inputs ((h.step P).trans (congrArg _ hend))
  have hout : Buffer.slice s.out 0 s.outLen = text := by rw [h.outLen]; exact h.output
  simpa [hout] using hends

/-- The end sentinel with another word behind it, or none, ends in BadLRC. -/
theorem Decoding.ends_badLrc {P : Params} {s : State} {w : Symbol} {ws : List Symbol} {v : BitVec 4} {text : List Byte}
    (h : Decoding s (w :: ws) v text) (hw : charOf w = endChar) (hlrc : ws.head? ≠ some (validWord (v ^^^ 0b1111#4))) :
    EndsWith P s .badLrc [] := by
  obtain ⟨c, hend, -, hbad⟩ := s.takeSymbol_end w hw
  obtain rfl : c = .badLrc := by
    refine hbad ?_
    rw [forceParity_eq_validWord, dataBits_foldData, h.column, dataBits_of_charOf_end w hw]
    cases ws with
    | nil => exact .inl (by simp [h.count])
    | cons x ws =>
      refine .inr fun heq => hlrc ?_
      rw [← heq, List.head?_cons]
      exact congrArg some (h.left 1 x rfl).symm
  exact EndsWith.of_raise h.inputs ((h.step P).trans (congrArg _ hend))

/-! ### The entry -/

theorem AtDecode.read {s : State} {ws : List Symbol} (h : AtDecode s ws) (k : Nat) (w : Symbol)
    (hk : ws[k]? = some w) : Buffer.read s.syms k = w := by
  obtain ⟨-, hcnt, hsyms⟩ := h
  obtain ⟨hlt, rfl⟩ := List.getElem?_eq_some_iff.mp hk
  rw [hcnt] at hsyms
  simpa using Buffer.Holds.read (b := s.syms) (base := 0) hsyms k hlt

/-- R242, R244: `;` first. -/
theorem AtDecode.forward {P : Params} {s : State} {w : Symbol} {ws : List Symbol} (h : AtDecode s (w :: ws))
    (hw : charOf w = startChar) : ∃ t, Reaches P s t ∧ Decoding t ws 0b1011#4 [] := by
  have hread := h.read
  obtain ⟨⟨hp, he, hwait, hi⟩, hcnt, -⟩ := h
  have hstep := coreStep_decode_entry P s hwait hp he (by simp [hcnt])
  rw [hread 0 w rfl, s.enterDecode_start w hw] at hstep
  refine ⟨_, .step hi hstep, hp, rfl, hwait, hi, fun k x hk => ?_, ?_, dataBits_of_charOf_start w hw, rfl, rfl⟩
  · exact (congrArg _ (Nat.add_comm 1 k)).trans (hread (k + 1) x hk)
  · simp [hcnt]; omega

/-- A sequence turned around and read from its end is the sequence again (R243). -/
theorem getElem?_reverse_map_rev (ws : List Symbol) (k : Nat) (w : Symbol) (hk : ws[k]? = some w) :
    (ws.reverse.map rev)[ws.length - 1 - k]? = some (rev w) := by
  obtain ⟨hlt, -⟩ := List.getElem?_eq_some_iff.mp hk
  rw [List.getElem?_map, List.getElem?_reverse (by omega), show ws.length - 1 - (ws.length - 1 - k) = k by omega, hk]
  rfl

/-- R243, R244: a sequence that does not begin with `;` but is the reversal of one that does. -/
theorem AtDecode.reversed {P : Params} {s : State} {w : Symbol} {ws : List Symbol}
    (h : AtDecode s ((w :: ws).reverse.map rev)) (hw : charOf w = startChar)
    (hlast : ∀ x, (w :: ws).getLast? = some x → charOf (rev x) ≠ startChar) :
    ∃ t, Reaches P s t ∧ Decoding t ws 0b1011#4 [] := by
  have hcnt : s.symCnt = (w :: ws).length := by simpa using h.2.1
  have hread (k : Nat) (x : Symbol) (hk : (w :: ws)[k]? = some x) :
      rev (Buffer.read s.syms (s.symCnt - 1 - k)) = x := by
    rw [h.read _ _ (hcnt ▸ getElem?_reverse_map_rev (w :: ws) k x hk), rev_rev]
  have hfirst : charOf (Buffer.read s.syms 0) ≠ startChar := by
    have hx := List.getLast?_eq_getElem? (l := w :: ws)
    obtain ⟨x, hx'⟩ : ∃ x, (w :: ws).getLast? = some x := ⟨_, List.getLast?_eq_some_getLast (by simp)⟩
    have h0 := hread ((w :: ws).length - 1) x (hx ▸ hx')
    rw [hcnt, Nat.sub_self] at h0
    have := hlast x hx'
    rwa [← h0, rev_rev] at this
  obtain ⟨⟨hp, he, hwait, hi⟩, -, -⟩ := h
  have hstep := coreStep_decode_entry P s hwait hp he (by simp [hcnt])
  have hzero : rev (Buffer.read s.syms (s.symCnt - 1)) = w := hread 0 w rfl
  obtain ⟨hstart, -⟩ | ⟨-, -, henter⟩ | ⟨-, hnone, -⟩ := s.enterDecode_cases (Buffer.read s.syms 0)
  · exact absurd hstart hfirst
  · rw [henter, hzero] at hstep
    refine ⟨_, .step hi hstep, hp, rfl, hwait, hi, fun k x hk => ?_, ?_, dataBits_of_charOf_start w hw, rfl, rfl⟩
    · exact (congrArg _ (Nat.add_comm 1 k)).trans ((decodedSym_reversed _ _ rfl).trans (hread (k + 1) x hk))
    · simp [hcnt]; omega
  · exact absurd (hzero ▸ hw) hnone

/-! ### The encoder's words, forward and reversed -/

theorem lrcOf_eq (d : List Byte) : lrcOf d = validWord (columns 0b1011#4 (d.map wordOfChar) ^^^ 0b1111#4) := by
  rw [lrcOf, lrcData_trackText]

/-- Whichever way the decoder reads them, behind `;` the words of a data text, `?` and its LRC give the text. -/
theorem Decoding.ends_text {P : Params} {s : State} {d : List Byte} (hd : DataText d) (extra : List Symbol)
    (h : Decoding s (d.map wordOfChar ++ 0x1F#5 :: lrcOf d :: extra) 0b1011#4 []) : EndsWith P s .ok d := by
  obtain ⟨t, hrun, ht⟩ := h.run (P := P) _ _ hd.charOf_ne_end
  rw [lrcOf_eq, List.nil_append, hd.map_charOf] at ht
  exact .of_reaches hrun (ht.ends_ok (by decide))

/-- Settles O40: `;` makes the decoder read forward, and `Decoding.ends_text` is the rest. -/
theorem encodedTextDecodes : Obligations.EncodedTextDecodes := by
  intro P s d extra hd h
  rw [encodeText_trackText, List.cons_append, List.append_assoc] at h
  obtain ⟨t, hrun, ht⟩ := h.forward (P := P) (by decide)
  exact .of_reaches hrun (ht.ends_text hd extra)

/-- Settles O41: the recoverer gives the encoder's bits, a longer run-out before them (O36), the framer its words (O38), and
the decoder the text (O40). -/
theorem encodedSwipeDecodes : Obligations.EncodedSwipeDecodes := by
  intro P s d T n last a b hs hc hT hn hd h
  obtain ⟨t, hst, ht⟩ := recovers_encodeIntervals hs hc hT hn h
  have hbits : List.replicate (n - leadIn P) false ++ encodeBits a b (encodeText (trackText d)) =
      encodeBits (n - leadIn P + a) b (encodeText (trackText d)) := by
    simp only [encodeBits, List.replicate_add, List.append_assoc]
  have hodd := oddParity_encodeText (trackText d)
  rw [hbits] at ht
  rw [encodeText_trackText] at ht hodd
  obtain ⟨u, htu, hu⟩ := frames_encodeBits (P := P) hodd (by decide) ht
  rw [← encodeText_trackText, ← List.append_nil (encodeText _)] at hu
  exact .of_reaches (hst.trans htu) (encodedTextDecodes P u d [] hd hu)

/-! ### Reversals (R252 to R254) -/

/-- The only valid word whose reversal has the character `;` is 0x1A. -/
theorem charOf_rev_validWord (v : BitVec 4) : charOf (rev (validWord v)) = startChar ↔ validWord v = 0x1A#5 := by
  revert v
  decide

theorem reversed_encodeText_ends_ok {P : Params} {s : State} {d : List Byte} (hd : DataText d)
    (h : AtDecode s ((encodeText (trackText d)).reverse.map rev)) (hlrc : lrcOf d ≠ 0x1A#5) : EndsWith P s .ok d := by
  rw [encodeText_trackText] at h
  obtain ⟨t, hrun, ht⟩ := h.reversed (P := P) (by decide) fun x hx => by
    obtain rfl : lrcOf d = x := by simpa [List.getLast?_cons] using hx
    exact mt (charOf_rev_validWord _).mp hlrc
  exact .of_reaches hrun (ht.ends_text hd [])

/-- A `?` right behind `;` ends the invocation without a character. -/
theorem Decoding.ends_empty {P : Params} {s : State} {ws : List Symbol} {v : BitVec 4}
    (h : Decoding s (0x1F#5 :: ws) v []) : ∃ c, EndsWith P s c [] := by
  by_cases hlrc : ws.head? = some (validWord (v ^^^ 0b1111#4))
  · obtain ⟨ws, rfl⟩ := List.head?_eq_some_iff.mp hlrc
    exact ⟨_, h.ends_ok (by decide)⟩
  · exact ⟨_, h.ends_badLrc (by decide) hlrc⟩

/-- With the LRC 0x1A the reversed sequence begins with `;` and `?`, and no character comes out. -/
theorem reversed_encodeText_ends_empty {P : Params} {s : State} {d : List Byte}
    (h : AtDecode s ((encodeText (trackText d)).reverse.map rev)) (hlrc : lrcOf d = 0x1A#5) :
    ∃ c, EndsWith P s c [] := by
  have hturn : (encodeText (trackText d)).reverse.map rev =
      0x0B#5 :: 0x1F#5 :: ((d.map wordOfChar).reverse.map rev ++ [rev 0x0B#5]) := by
    simp [encodeText_trackText, hlrc, show rev 0x1A#5 = 0x0B#5 by decide, show rev 0x1F#5 = 0x1F#5 by decide]
  rw [hturn] at h
  obtain ⟨t, hrun, ht⟩ := h.forward (P := P) (by decide)
  obtain ⟨c, hc⟩ := ht.ends_empty (P := P)
  exact ⟨c, .of_reaches hrun hc⟩

/-- Settles O42: with another LRC the decoder reads the sequence turned around; with 0x1A no text comes out, and the empty
one has another LRC. -/
theorem symbolReversalIsInvisibleUnlessLrcIs1A : Obligations.SymbolReversalIsInvisibleUnlessLrcIs1A := by
  refine fun P s d hd h => ⟨fun hok hlrc => ?_, reversed_encodeText_ends_ok hd h⟩
  obtain ⟨c, hempty⟩ := reversed_encodeText_ends_empty (P := P) h hlrc
  obtain ⟨-, rfl⟩ := EndsWith.unique h.1.2.2.2 hok hempty
  exact absurd hlrc (by decide)

theorem reverse_bitsOfWord (w : Symbol) : (bitsOfWord w).reverse = bitsOfWord (rev w) := by
  simp (disch := decide) only [bitsOfWord, getLsbD_rev]
  rfl

/-- The bits of a reversed swipe are those of the reversed words, with the run-outs exchanged. -/
theorem reverse_encodeBits (a b : Nat) (ws : List Symbol) :
    (encodeBits a b ws).reverse = encodeBits b a (ws.reverse.map rev) := by
  have hwords : List.reverse ∘ bitsOfWord = bitsOfWord ∘ rev := funext reverse_bitsOfWord
  have hturn : (ws.flatMap bitsOfWord).reverse = (ws.reverse.map rev).flatMap bitsOfWord := by
    rw [List.reverse_flatMap, hwords, List.flatMap_map]
    rfl
  simp only [encodeBits, List.reverse_append, List.reverse_replicate, hturn, List.append_assoc]

/-- Settles O43: the reversed bits frame to the reversed words, the first of which begins with the parity bit of the LRC,
and O42's decoding follows. -/
theorem bitReversalIsInvisibleWithALrcParityBit : Obligations.BitReversalIsInvisibleWithALrcParityBit := by
  intro P s d a b hd hparity hlrc h
  have hwords : (encodeText (trackText d)).reverse.map rev =
      rev (lrcOf d) :: ((0x0B#5 :: (d.map wordOfChar ++ [0x1F#5])).reverse.map rev) := by
    simp [encodeText_trackText]
  have hodd : ∀ w ∈ (encodeText (trackText d)).reverse.map rev, oddParity w = true := by
    intro w hw
    obtain ⟨x, hx, rfl⟩ := List.mem_map.mp hw
    rw [oddParity, popcount_rev]
    exact oddParity_encodeText _ x (List.mem_reverse.mp hx)
  have hbit : (rev (lrcOf d)).getLsbD 0 = true := by rw [getLsbD_rev _ 0 (by decide), hparity]
  rw [reverse_encodeBits, hwords] at h
  obtain ⟨t, hst, ht⟩ := frames_encodeBits (P := P) (hwords ▸ hodd) hbit h
  exact .of_reaches hst (reversed_encodeText_ends_ok hd (hwords ▸ ht) hlrc)

/-! ### Flipped data bits (R256) -/

/-- One changed word in a list changes the columns, if its data bits change. -/
theorem columns_set_ne (v : BitVec 4) (ws : List Symbol) (j : Nat) (w x : Symbol) (hw : ws[j]? = some w)
    (hx : dataBits x ≠ dataBits w) : columns v (ws.set j x) ≠ columns v ws := by
  induction ws generalizing v j with
  | nil => simp at hw
  | cons y ws ih =>
    cases j with
    | zero =>
      obtain rfl : y = w := by simpa using hw
      intro h
      exact hx ((BitVec.xor_right_inj _).mp (columns_injective ws h))
    | succ j => exact ih _ j (by simpa using hw)

theorem dataBits_flip_ne (w : Symbol) (k : Nat) (hk : k < 4) : dataBits (w ^^^ (1#5 <<< k)) ≠ dataBits w := by
  intro h
  have hbit := congrArg (fun v => v.getLsbD k) h
  interval_cases k <;> simp [dataBits] at hbit

/-- Settles O44: the flipped word is data still, so the body runs to the `?`, where the columns do not make the LRC. -/
theorem flippedDataBitGivesBadLrc : Obligations.FlippedDataBitGivesBadLrc := by
  intro P s d j k w hd hj hk hw hchar h
  rw [encodeText_trackText, List.getElem?_cons_succ, List.getElem?_append_left (by simpa using hj)] at hw
  rw [encodeText_trackText, List.set_cons_succ, List.set_append_left _ _ (by simpa using hj)] at h
  obtain ⟨t, hst, ht⟩ := h.forward (P := P) (by decide)
  obtain ⟨u, htu, hu⟩ := ht.run (P := P) _ _ fun x hx => by
    obtain hx | rfl := List.mem_or_eq_of_mem_set hx
    · exact hd.charOf_ne_end x hx
    · exact hchar
  refine .of_reaches (hst.trans htu) (hu.ends_badLrc (by decide) fun heq => ?_)
  rw [List.head?_cons, Option.some_inj, lrcOf_eq] at heq
  exact columns_set_ne _ _ j w _ hw (dataBits_flip_ne w k hk)
    ((BitVec.xor_left_inj _).mp (validWord_injective heq)).symm

/-- The words of `;>4?` after a flip of the lowest data bit of `>`: 0x0E has become 0x0F, a `?` with the wrong parity. -/
def flippedWords : List Symbol :=
  [0x0B#5, 0x0F#5, 0x04#5, 0x1F#5, 0x0E#5]

theorem flippedWords_eq : (encodeText (trackText [0x3E#8, 0x34#8])).set 1 (0x0E#5 ^^^ (1#5 <<< 0)) = flippedWords := by
  decide

/-- A decoder about to read them. -/
def flippedIntoEnd : State :=
  { State.reset with phase := .decode, symCnt := 5, syms := Buffer.writeList [] 0 flippedWords }

theorem flippedIntoEnd_atDecode : AtDecode flippedIntoEnd flippedWords :=
  ⟨⟨rfl, rfl, rfl, rfl⟩, rfl, Buffer.slice_writeList [] 0 flippedWords⟩

/-- Behind `;` the body is a `?` at once, and the word behind it is that of the columns. -/
theorem flippedIntoEnd_ends_ok (P : Params) : EndsWith P flippedIntoEnd .ok [] := by
  obtain ⟨t, hrun, ht⟩ := flippedIntoEnd_atDecode.forward (P := P) (by decide)
  have hlrc : validWord (0b1011#4 ^^^ 0b1111#4) = 0x04#5 := by decide
  exact .of_reaches hrun (Decoding.ends_ok (hlrc.symm ▸ ht) (by decide))

/-- Refutes O45: in `;>4?` the flip of bit 0 of `>` makes a `?`, the accumulator is then 0x04, which is the word of the `4`
behind it, and the invocation ends with OK and no text. -/
theorem not_anyFlippedDataBitGivesBadLrc : ¬ Obligations.AnyFlippedDataBitGivesBadLrc := by
  intro hall
  have hd : DataText [0x3E#8, 0x34#8] := by
    unfold DataText
    decide
  have hword : (encodeText (trackText [0x3E#8, 0x34#8]))[0 + 1]? = some 0x0E#5 := by decide
  have hbad := hall Config.params flippedIntoEnd [0x3E#8, 0x34#8] 0 0 0x0E#5 hd (by decide) (by decide) hword
    (flippedWords_eq ▸ flippedIntoEnd_atDecode)
  exact absurd (EndsWith.unique rfl hbad (flippedIntoEnd_ends_ok _)).1 (by decide)

end Sys2Proof.Machine
end

section
/-! PROOFS. The trims of an event (R160, R161): how many chunks each drops, that each of them is quiet, and that a trim
with fuel enough stops at a loud one. -/

namespace Sys2Proof.Machine

/-! ### The front trim -/

theorem trimFront_quiet {P : Params} {sw n : Nat} {w : List Int} (hlen : P.trimChunk ≤ w.length)
    (hq : isQuietChunk P (ptp (w.take P.trimChunk)) sw = true) :
    trimFront P sw (n + 1) w = trimFront P sw n (w.drop P.trimChunk) := by
  simp [trimFront, hlen, hq]

theorem trimFront_stops {P : Params} {sw n : Nat} {w : List Int}
    (h : ¬ (P.trimChunk ≤ w.length ∧ isQuietChunk P (ptp (w.take P.trimChunk)) sw = true)) :
    trimFront P sw (n + 1) w = w := by
  simp only [trimFront, Bool.and_eq_true, decide_eq_true_eq, if_neg h]

/-- R160: whole chunks are dropped from the front, all of them quiet. -/
theorem trimFront_spec (P : Params) (sw fuel : Nat) (w : List Int) :
    ∃ a, a * P.trimChunk ≤ w.length ∧ trimFront P sw fuel w = w.drop (a * P.trimChunk) ∧
      ∀ i < a, isQuietChunk P (ptp ((w.drop (i * P.trimChunk)).take P.trimChunk)) sw = true := by
  induction fuel generalizing w with
  | zero => exact ⟨0, by simp, by simp [trimFront], by simp⟩
  | succ n ih =>
    by_cases h : P.trimChunk ≤ w.length ∧ isQuietChunk P (ptp (w.take P.trimChunk)) sw = true
    · obtain ⟨hlen, hq⟩ := h
      obtain ⟨a, ha, htrim, hquiet⟩ := ih (w.drop P.trimChunk)
      rw [List.length_drop] at ha
      refine ⟨a + 1, by rw [Nat.succ_mul]; omega, ?_, fun i hi => ?_⟩
      · rw [trimFront_quiet hlen hq, htrim, List.drop_drop, Nat.succ_mul, Nat.add_comm]
      · cases i with
        | zero => simpa using hq
        | succ i =>
          have := hquiet i (by omega)
          rwa [List.drop_drop, Nat.add_comm, ← Nat.succ_mul] at this
    · exact ⟨0, by simp, by simp [trimFront_stops h], by simp⟩

/-- The length of the waveform is fuel enough: what the front trim leaves has a loud chunk in front, or is shorter than
one. -/
theorem trimFront_loud (P : Params) (sw fuel : Nat) (w : List Int) (hc : 0 < P.trimChunk) (hfuel : w.length ≤ fuel)
    (hlen : P.trimChunk ≤ (trimFront P sw fuel w).length) :
    isQuietChunk P (ptp ((trimFront P sw fuel w).take P.trimChunk)) sw = false := by
  induction fuel generalizing w with
  | zero => simp only [trimFront] at hlen; omega
  | succ n ih =>
    by_cases h : P.trimChunk ≤ w.length ∧ isQuietChunk P (ptp (w.take P.trimChunk)) sw = true
    · rw [trimFront_quiet h.1 h.2] at hlen ⊢
      exact ih _ (by rw [List.length_drop]; omega) hlen
    · rw [trimFront_stops h] at hlen ⊢
      simpa [hlen] using h

/-! ### The back trim -/

theorem trimBack_quiet {P : Params} {sw n : Nat} {w : List Int} (hlen : P.trimChunk ≤ w.length)
    (hq : isQuietChunk P (ptp (w.drop (w.length - P.trimChunk))) sw = true) :
    trimBack P sw (n + 1) w = trimBack P sw n (w.take (w.length - P.trimChunk)) := by
  simp [trimBack, hlen, hq]

theorem trimBack_stops {P : Params} {sw n : Nat} {w : List Int}
    (h : ¬ (P.trimChunk ≤ w.length ∧ isQuietChunk P (ptp (w.drop (w.length - P.trimChunk))) sw = true)) :
    trimBack P sw (n + 1) w = w := by
  simp only [trimBack, Bool.and_eq_true, decide_eq_true_eq, if_neg h]

/-- A chunk inside the front part of a list is the same chunk of the list. -/
theorem take_drop_take (w : List Int) (m i c : Nat) (h : i + c ≤ m) :
    ((w.take m).drop i).take c = (w.drop i).take c := by
  rw [List.drop_take, List.take_take, Nat.min_eq_left (by omega)]

/-- R161: whole chunks are dropped from the back, all of them quiet. -/
theorem trimBack_spec (P : Params) (sw fuel : Nat) (w : List Int) :
    ∃ b, b * P.trimChunk ≤ w.length ∧ trimBack P sw fuel w = w.take (w.length - b * P.trimChunk) ∧
      ∀ j < b, isQuietChunk P (ptp ((w.drop (w.length - (j + 1) * P.trimChunk)).take P.trimChunk)) sw = true := by
  induction fuel generalizing w with
  | zero => exact ⟨0, by simp, by simp [trimBack], by simp⟩
  | succ n ih =>
    by_cases h : P.trimChunk ≤ w.length ∧ isQuietChunk P (ptp (w.drop (w.length - P.trimChunk))) sw = true
    · obtain ⟨hlen, hq⟩ := h
      obtain ⟨b, hb, htrim, hquiet⟩ := ih (w.take (w.length - P.trimChunk))
      have hrest : (w.take (w.length - P.trimChunk)).length = w.length - P.trimChunk := by simp
      rw [hrest] at hb htrim hquiet
      refine ⟨b + 1, by rw [Nat.succ_mul]; omega, ?_, fun j hj => ?_⟩
      · rw [trimBack_quiet hlen hq, htrim, List.take_take, Nat.min_eq_left (Nat.sub_le _ _), Nat.succ_mul, Nat.sub_sub,
          Nat.add_comm]
      · cases j with
        | zero =>
          rw [Nat.zero_add, Nat.one_mul, List.take_of_length_le (by rw [List.length_drop]; omega)]
          exact hq
        | succ j =>
          have hfit : (j + 1) * P.trimChunk ≤ b * P.trimChunk := Nat.mul_le_mul_right _ (by omega)
          have := hquiet j (by omega)
          rw [take_drop_take _ _ _ _ (by rw [Nat.succ_mul] at *; omega)] at this
          rwa [Nat.succ_mul (j + 1), Nat.add_comm, ← Nat.sub_sub]
    · exact ⟨0, by simp, by simp [trimBack_stops h], by simp⟩

theorem trimBack_loud (P : Params) (sw fuel : Nat) (w : List Int) (hc : 0 < P.trimChunk) (hfuel : w.length ≤ fuel)
    (hlen : P.trimChunk ≤ (trimBack P sw fuel w).length) :
    isQuietChunk P (ptp ((trimBack P sw fuel w).drop ((trimBack P sw fuel w).length - P.trimChunk))) sw = false := by
  induction fuel generalizing w with
  | zero => simp only [trimBack] at hlen; omega
  | succ n ih =>
    by_cases h : P.trimChunk ≤ w.length ∧ isQuietChunk P (ptp (w.drop (w.length - P.trimChunk))) sw = true
    · rw [trimBack_quiet h.1 h.2] at hlen ⊢
      exact ih _ (by rw [List.length_take]; omega) hlen
    · rw [trimBack_stops h] at hlen ⊢
      simpa [hlen] using h

/-! ### The event -/

theorem Params.wellFormed_iff (P : Params) : P.wellFormed = true ↔
    0 < P.blockN ∧ 0 < P.powWin ∧ 0 < P.trimChunk ∧ 0 < P.initWindow ∧ 0 < P.clkWin ∧ P.maxActive ≠ some 0 ∧
      0 < P.threshFactor.den ∧ 0 < P.trimFactor.den ∧ 0 < P.initFactor.den ∧ 0 < P.nextFactor.den ∧
      0 < P.longFactor.den := by
  simp [Params.wellFormed, Ratio.wellFormed, and_assoc]

theorem rawEvent_length (P : Params) (s : State) : (rawEvent P s).length = (s.actCnt + 2) * P.blockN := by
  simp only [rawEvent, List.length_append, Buffer.slice_length, corrected_length]
  ring

/-- Settles O28: the two trims' lemmas one after the other; the chunk in front stays loud, because the back trim leaves it
whole. -/
theorem trimDropsExactlyTheQuietEnds : Obligations.TrimDropsExactlyTheQuietEnds := by
  intro P s hwf
  obtain ⟨-, -, hc, -⟩ := (Params.wellFormed_iff P).mp hwf
  refine ⟨rawEvent_length P s, ?_⟩
  generalize hw : rawEvent P s = w
  obtain ⟨a, ha, hfront, hquietFront⟩ := trimFront_spec P s.windowSum w.length w
  have hloudFront := trimFront_loud P s.windowSum w.length w hc le_rfl
  generalize hf : trimFront P s.windowSum w.length w = f at hfront hloudFront
  obtain ⟨b, hb, hback, hquietBack⟩ := trimBack_spec P s.windowSum f.length f
  have hloudBack := trimBack_loud P s.windowSum f.length f hc le_rfl
  have htrimmed : trimmedEvent P s = trimBack P s.windowSum f.length f := by simp only [trimmedEvent, hw, hf]
  have hflen : f.length = w.length - a * P.trimChunk := by rw [hfront, List.length_drop]
  rw [htrimmed]
  refine ⟨a, b, by omega, ?_, hquietFront, fun j hj => ?_, fun hlen => ⟨?_, hloudBack hlen⟩⟩
  · rw [hback, hflen, hfront]
  · have hfit : (j + 1) * P.trimChunk ≤ b * P.trimChunk := Nat.mul_le_mul_right _ hj
    have hquiet := hquietBack j hj
    rw [hflen, hfront, List.drop_drop,
      show a * P.trimChunk + (w.length - a * P.trimChunk - (j + 1) * P.trimChunk) = w.length - (j + 1) * P.trimChunk by
        omega] at hquiet
    exact hquiet
  · rw [hback, List.length_take] at hlen
    rw [hback, List.take_take, Nat.min_eq_left (by omega)]
    exact hloudFront (by omega)

end Sys2Proof.Machine
end

section
/-! PROOFS. A silent Source (R142): a block of zeros has no power, so it is scanned and dropped. -/

namespace Sys2Proof.Machine

theorem samplesOfBytes_zeros (n : Nat) :
    samplesOfBytes (List.replicate (2 * n) 0#8) = List.replicate n 0#16 := by
  induction n with
  | zero => rfl
  | succ n ih => simp only [Nat.mul_succ, List.replicate_succ, samplesOfBytes, ih]; rfl

/-- A block whose samples are all zero has no power. -/
theorem ptp_rawBlock_zeros (P : Params) (s : State) (b : Buffer RawSample)
    (hb : s.blk = Buffer.writeList b 0 (List.replicate P.blockN 0#16)) : ptp (rawBlock P s) = 0 := by
  have hslice := Buffer.slice_writeList b 0 (List.replicate P.blockN 0#16)
  rw [List.length_replicate, ← hb] at hslice
  have hzero : ∀ x ∈ rawBlock P s, (0 : Int) ≤ x ∧ x ≤ 0 := by
    simp only [rawBlock, hslice, List.map_replicate, List.mem_replicate]
    rintro x ⟨-, rfl⟩
    decide
  have := ptp_le (rawBlock P s) 0 0 le_rfl hzero
  omega

theorem isActive_zero (P : Params) (sw : Nat) : isActive P 0 sw = false := by
  simp [isActive]

/-- Scanning between two blocks, with no result and no run that a quiet block would end as an event. -/
structure Scanning (s : State) : Prop where
  phase : s.phase = .scan
  waitBlk : s.waitBlk = false
  blkHere : s.blkHere = false
  cancelReq : s.cancelReq = false
  done : s.done = false
  actCnt : s.actCnt ≤ 1

theorem Scanning.requests {s : State} (P : Params) (rest : List Move) (h : Scanning s) (hi : s.inputs = .core :: rest) :
    stepWith P s = .next (State.requestBlock { s with inputs := rest }) := by
  rw [stepWith_core P s rest hi, coreStep_beginBlock P { s with inputs := rest } (.inr h.phase) h.waitBlk h.blkHere,
    beginBlockStep_unlatched { s with inputs := rest } h.cancelReq]

theorem stepWith_silentDelivery (P : Params) (s : State) (rest : List Move) (hw : s.waitBlk = true)
    (hi : s.inputs = .port (.deliver (List.replicate (2 * P.blockN) 0#8)) :: rest) :
    stepWith P s = .next (State.takeBlock (List.replicate P.blockN 0#16) { s with inputs := rest }) := by
  rw [stepWith_port P s _ rest hi, ← samplesOfBytes_zeros]
  exact deliverStep_granted P _ { s with inputs := rest } hw (by simp)

theorem stepWith_scansZeros (P : Params) (s : State) (rest : List Move) (b : Buffer RawSample) (hp : s.phase = .scan)
    (hw : s.waitBlk = false) (hb : s.blkHere = true) (hn : s.actCnt ≤ 1)
    (hblk : s.blk = Buffer.writeList b 0 (List.replicate P.blockN 0#16)) (hi : s.inputs = .core :: rest) :
    stepWith P s = .next (noiseStep P { s with inputs := rest }) := by
  rw [stepWith_core P s rest hi, coreStep_scanBlock P { s with inputs := rest } hp hw hb,
    scanStep_notActive P { s with inputs := rest } hn]
  rw [ptp_rawBlock_zeros P { s with inputs := rest } b hblk, isActive_zero]

/-- The moves of one silent block: the core requests it, the Source delivers zeros, the core classifies it. -/
def silentBlock (P : Params) : List Move :=
  [.core, .port (.deliver (List.replicate (2 * P.blockN) 0#8)), .core]

theorem Scanning.run_silentBlock {P : Params} {s : State} {rest : List Move} (h : Scanning s)
    (hi : s.inputs = silentBlock P ++ rest) : ∃ t, runWith P 3 s = .next t ∧ Scanning t ∧ t.inputs = rest := by
  have hrequest := h.requests P _ hi
  have hdeliver := stepWith_silentDelivery P (State.requestBlock { s with
    inputs := .port (.deliver (List.replicate (2 * P.blockN) 0#8)) :: .core :: rest }) (.core :: rest) rfl rfl
  have hscan := stepWith_scansZeros P (State.takeBlock (List.replicate P.blockN 0#16) (State.requestBlock { s with
    inputs := .core :: rest })) rest s.blk h.phase rfl rfl h.actCnt rfl rfl
  exact ⟨_, (runWith_succ_of_next 2 hrequest).trans ((runWith_succ_of_next 1 hdeliver).trans
    (runWith_succ_of_next 0 hscan)), ⟨h.phase, rfl, rfl, h.cancelReq, h.done, Nat.zero_le 1⟩, rfl⟩

theorem Scanning.run_silence {P : Params} (n : Nat) {s : State} (h : Scanning s)
    (hi : s.inputs = (List.replicate n (silentBlock P)).flatten) :
    ∃ t, runWith P (3 * n) s = .next t ∧ Scanning t ∧ t.inputs = [] := by
  induction n generalizing s with
  | zero => exact ⟨s, rfl, h, hi⟩
  | succ n ih =>
    rw [List.replicate_succ, List.flatten_cons] at hi
    obtain ⟨t, hst, ht, hti⟩ := h.run_silentBlock hi
    obtain ⟨u, htu, hu⟩ := ih ht hti
    exact ⟨u, by rw [Nat.mul_succ, Nat.add_comm, runWith_add _ hst, htu], hu⟩

/-- Settles O50: `Scanning.run_silence`, the induction over the blocks. -/
theorem silenceIsScannedForEver : Obligations.SilenceIsScannedForEver := by
  intro P s n _ hp hw hb hc hd hn hi
  obtain ⟨t, hrun, ht, hti⟩ := Scanning.run_silence n ⟨hp, hw, hb, hc, hd, hn⟩ hi
  exact ⟨t, hrun, ht.phase, ht.done, ht.waitBlk, ht.blkHere, ht.cancelReq, hti⟩

end Sys2Proof.Machine
end

section
/-! PROOFS. A loud initial window (R188): the first threshold is 8/5 of the largest sample, so that no sample is above
it. -/

namespace Sys2Proof.Machine

theorem le_ptp (l : List Int) (x y : Int) (hx : x ∈ l) (hy : y ∈ l) : x - y ≤ ptp l := by
  have hl : l ≠ [] := List.ne_nil_of_mem hx
  have hmax := (maxOf_spec l hl).2 x hx
  have hmin := (minOf_spec l hl).2 y hy
  rw [ptp]
  omega

theorem Buffer.read_mem_slice {α : Type} [Inhabited α] (b : Buffer α) (n k : Nat) (hk : k < n) :
    Buffer.read b k ∈ Buffer.slice b 0 n :=
  List.mem_map.mpr ⟨k, List.mem_range.mpr hk, by rw [Nat.zero_add]⟩

theorem Params.defaultFactors_iff (P : Params) :
    P.defaultFactors = true ↔ P.initFactor = ⟨4, 5⟩ ∧ P.nextFactor = ⟨1, 2⟩ := by
  simp [Params.defaultFactors]

/-- Inside DETECT with no run open, no interval, and a threshold that no sample of the waveform exceeds. -/
structure Hidden (P : Params) (s : State) : Prop where
  phase : s.phase = .detect
  entered : s.entered = true
  waitBlk : s.waitBlk = false
  inputs : s.inputs = []
  peak : s.peak = 0
  ivlCnt : s.ivlCnt = 0
  below : ∀ k < s.waveLen, ∀ v : Int, v = Buffer.read s.wave k ∨ v = -Buffer.read s.wave k →
    (thrScale P : Int) * v ≤ s.thr

theorem Hidden.not_above {P : Params} {s : State} (h : Hidden P s) (hn : s.detJ < s.waveLen) : aboveThr P s = false := by
  refine (aboveThr_eq_false_iff P s).mpr (h.below s.detJ hn (signedSample s) ?_)
  cases hs : s.sign <;> simp [signedSample, hs]

theorem Hidden.step {P : Params} {s : State} (h : Hidden P s) (hn : s.detJ < s.waveLen) :
    stepWith P s = .next (detectAdvance s) :=
  (stepWith_silent P s h.inputs).trans
    (coreStep_detect_quiet P s h.waitBlk h.phase h.entered hn (h.not_above hn) h.peak)

/-- The samples that are left pass one by one without a transition. -/
theorem Hidden.run {P : Params} (n : Nat) {s : State} (h : Hidden P s) (hn : s.detJ + (n + 1) = s.waveLen) :
    ∃ t, runWith P (n + 1) s = .next t ∧ t.phase = .recover ∧ t.entered = false ∧ t.ivlCnt = 0 := by
  have hstep := h.step (by omega)
  induction n generalizing s with
  | zero =>
    refine ⟨detectAdvance s, runWith_succ_of_next 0 hstep, ?_⟩
    simp [detectAdvance, hn, h.ivlCnt]
  | succ n ih =>
    rw [detectAdvance_inside s (by omega)] at hstep
    have hnext : Hidden P { s with detJ := s.detJ + 1 } :=
      ⟨h.phase, h.entered, h.waitBlk, h.inputs, h.peak, h.ivlCnt, h.below⟩
    have hleft : s.detJ + 1 + (n + 1) = s.waveLen := by omega
    rw [runWith_succ_of_next (n + 1) hstep]
    exact ih hnext hleft (hnext.step (by simp only; omega))

/-- The entry step sets the threshold from both peaks in the window (R181). -/
theorem hidden_detectEntry {P : Params} {s : State} {a : Int} {i j : Nat} (hf : P.defaultFactors = true)
    (hs : AtStage .detect s) (hi : i < P.initWindow) (hi' : i < s.waveLen) (hj : j < P.initWindow)
    (hj' : j < s.waveLen) (hpos : Buffer.read s.wave i = a) (hneg : Buffer.read s.wave j = -a)
    (hall : ∀ k < s.waveLen, -a ≤ Buffer.read s.wave k ∧ Buffer.read s.wave k ≤ a) : Hidden P (detectEntry P s) := by
  obtain ⟨hp, -, hw, hin⟩ := hs
  obtain ⟨hinit, hnext⟩ := (Params.defaultFactors_iff P).mp hf
  refine ⟨hp, rfl, hw, hin, rfl, rfl, fun k hk v hv => ?_⟩
  have hptp := le_ptp _ _ _ (Buffer.read_mem_slice s.wave _ i (lt_min hi hi'))
    (Buffer.read_mem_slice s.wave _ j (lt_min hj hj'))
  rw [hpos, hneg] at hptp
  have hthr : (initThr P s : Int) = 8 * ptp (Buffer.slice s.wave 0 (min P.initWindow s.waveLen)) := by
    simp [initThr, hinit, hnext]
  have hscale : (thrScale P : Int) = 10 := by simp [thrScale, hinit, hnext]
  have hrange := hall k hk
  change (thrScale P : Int) * v ≤ (initThr P s : Int)
  rw [hthr, hscale]
  obtain rfl | rfl : v = Buffer.read s.wave k ∨ v = -Buffer.read s.wave k := hv
  · omega
  · omega

/-- Settles O33: the entry step makes every sample too small (`hidden_detectEntry`), and `Hidden.run` is the induction over
the samples. -/
theorem loudInitialWindowHidesEveryPeak : Obligations.LoudInitialWindowHidesEveryPeak := by
  intro P s a i j hf hs _ hi hi' hj hj' hpos hneg hall
  have hstep := (stepWith_silent P s hs.2.2.2).trans
    (coreStep_detect_entry P s hs.2.2.1 hs.1 hs.2.1 (Nat.zero_lt_of_lt hi'))
  have hhidden := hidden_detectEntry hf hs hi hi' hj hj' hpos hneg hall
  obtain ⟨n, hn⟩ : ∃ n, s.waveLen = n + 1 := Nat.exists_eq_succ_of_ne_zero (Nat.ne_zero_of_lt hi')
  obtain ⟨t, hrun, ht⟩ := hhidden.run n ((Nat.zero_add _).trans hn.symm)
  exact ⟨t, by rw [hn, runWith_succ_of_next (n + 1) hstep, hrun], ht⟩

end Sys2Proof.Machine
end

section
/-! PROOFS. The shapes of a detector step and of a decoder step as records, for the invariants; and the control registers:
which steps keep the result, and that every step keeps `ControlOk` (R31 to R37, R305). -/

namespace Sys2Proof.Machine

/-! ### Detector steps as records -/

theorem runSample_cases (s : State) :
    runSample s = s ∨ (s.peak : Int) < signedSample s ∧
      runSample s = { s with peak := (signedSample s).toNat, peakIdx := s.detJ } := by
  obtain h | h := lt_or_ge (s.peak : Int) (signedSample s)
  · exact .inr ⟨h, runSample_of_lt s h⟩
  · exact .inl (runSample_of_le s h)

theorem endRun_cases (P : Params) (s : State) :
    s.havePrev = false ∧ endRun P s = { s with
      prevIdx := s.peakIdx, havePrev := true, sign := !s.sign, thr := nextThr P s, peak := 0 } ∨
    s.havePrev = true ∧ endRun P s = { s.appendIvl (s.peakIdx - s.prevIdx) with
      prevIdx := s.peakIdx, havePrev := true, sign := !s.sign, thr := nextThr P s, peak := 0 } := by
  cases hv : s.havePrev with
  | false => exact .inl ⟨rfl, by rw [endRun, emitInterval_first s hv]⟩
  | true => exact .inr ⟨rfl, by rw [endRun, emitInterval_next s hv]⟩

theorem detectAdvance_cases (s : State) :
    s.detJ + 1 = s.waveLen ∧ detectAdvance s = { s.handOff .recover with detJ := s.detJ + 1 } ∨
    s.detJ + 1 ≠ s.waveLen ∧ detectAdvance s = { s with detJ := s.detJ + 1 } := by
  by_cases h : s.detJ + 1 = s.waveLen
  · exact .inl ⟨h, if_pos h⟩
  · exact .inr ⟨h, detectAdvance_inside s h⟩

/-! ### Steps that keep the result -/

/-- The result registers, and what the segmenter waits for or has in hand, are those of `s`. -/
structure KeepsResult (s t : State) : Prop where
  done : t.done = s.done
  resultCode : t.resultCode = s.resultCode
  resultLen : t.resultLen = s.resultLen
  waitBlk : t.waitBlk = s.waitBlk
  blkHere : t.blkHere = s.blkHere

theorem keepsResult_runSample (s : State) : KeepsResult s (runSample s) := by
  obtain h | ⟨-, h⟩ := runSample_cases s <;> rw [h] <;> exact ⟨rfl, rfl, rfl, rfl, rfl⟩

theorem keepsResult_endRun (P : Params) (s : State) : KeepsResult s (endRun P s) := by
  obtain ⟨-, h⟩ | ⟨-, h⟩ := endRun_cases P s <;> rw [h] <;> exact ⟨rfl, rfl, rfl, rfl, rfl⟩

theorem KeepsResult.detectAdvance {s u : State} (h : KeepsResult s u) : KeepsResult s (detectAdvance u) := by
  obtain ⟨hd, hc, hl, hw, hb⟩ := h
  obtain ⟨-, h⟩ | ⟨-, h⟩ := detectAdvance_cases u <;> rw [h] <;> exact ⟨hd, hc, hl, hw, hb⟩

/-- The decoder's entry keeps the result and stays in DECODE, or raises MissingStartSentinel. -/
theorem State.enterDecode_keeps (w : Symbol) (s : State) :
    KeepsResult s (s.enterDecode w) ∧ (s.enterDecode w).phase = s.phase ∨
    charOf w ≠ startChar ∧ charOf (rev (Buffer.read s.syms (s.symCnt - 1))) ≠ startChar ∧
      s.enterDecode w = State.raise .missingStartSentinel { s with dir := true } := by
  obtain ⟨-, h⟩ | ⟨-, -, h⟩ | h := s.enterDecode_cases w
  · exact .inl (h ▸ ⟨⟨rfl, rfl, rfl, rfl, rfl⟩, rfl⟩)
  · exact .inl (h ▸ ⟨⟨rfl, rfl, rfl, rfl, rfl⟩, rfl⟩)
  · exact .inr h

/-! ### The control invariant -/

theorem controlOk_raise (s : State) (c : ResultCode) (hc : c ≠ .reserved) : ControlOk (s.raise c) where
  phase_legal := by simp
  outcome_legal := hc
  done_idle := fun _ => rfl
  wait_segmenter := nofun
  block_segmenter := nofun
  cancel_busy := nofun
  entered_stage := nofun
  no_result := nofun
  failure_empty := fun hfail => if_neg hfail

theorem controlOk_startInvocation (s : State) : ControlOk s.startInvocation := by
  constructor <;> simp

theorem controlOk_resetStep (P : Params) (s : State) : ControlOk (resetStep P s) := by
  constructor <;> simp [resetStep, State.resetFor]

/-- The tape and what the host saw are no part of the invariant. -/
theorem ControlOk.setOutside {s : State} (h : ControlOk s) (i : List Move) (v : HostView) (n : Nat) :
    ControlOk { s with inputs := i, hostSaw := v, freeCnt := n } :=
  ⟨h.phase_legal, h.outcome_legal, h.done_idle, h.wait_segmenter, h.block_segmenter, h.cancel_busy, h.entered_stage,
    h.no_result, h.failure_empty⟩

/-- A step inside an invocation that keeps the result. -/
theorem ControlOk.running {s t : State} (h : ControlOk s) (hs : s.phase ≠ .idle) (ht : t.phase ≠ .idle)
    (hl : t.phase ≠ .reserved) (hd : t.done = s.done) (hc : t.resultCode = s.resultCode)
    (hn : t.resultLen = s.resultLen) (hw : t.waitBlk = true → (t.phase = .prime ∨ t.phase = .scan) ∧ t.blkHere = false)
    (hb : t.blkHere = true → t.phase = .prime ∨ t.phase = .scan)
    (he : t.entered = true → t.phase = .detect ∨ t.phase = .recover ∨ t.phase = .frame ∨ t.phase = .decode) :
    ControlOk t where
  phase_legal := hl
  outcome_legal := hc ▸ h.outcome_legal
  done_idle := fun hdone => absurd (h.done_idle (hd ▸ hdone)) hs
  wait_segmenter := hw
  block_segmenter := hb
  cancel_busy := fun _ => ht
  entered_stage := he
  no_result := fun hdone => hc ▸ hn ▸ h.no_result (hd ▸ hdone)
  failure_empty := fun hfail => hn ▸ h.failure_empty (hc ▸ hfail)

theorem PastSegmenter.not_idle {s : State} (h : PastSegmenter s) : s.phase ≠ .idle := by
  obtain h | h | h | h := h <;> simp [h]

theorem PastSegmenter.not_reserved {s : State} (h : PastSegmenter s) : s.phase ≠ .reserved := by
  obtain h | h | h | h := h <;> simp [h]

theorem PastSegmenter.not_segmenter {s : State} (h : PastSegmenter s) : ¬ (s.phase = .prime ∨ s.phase = .scan) := by
  obtain h | h | h | h := h <;> simp [h]

/-- The same past the segmenter, where nothing is waited for. -/
theorem ControlOk.later {s t : State} (h : ControlOk s) (hs : PastSegmenter s) (ht : PastSegmenter t)
    (hk : KeepsResult s t) : ControlOk t :=
  h.running hs.not_idle ht.not_idle ht.not_reserved hk.done hk.resultCode hk.resultLen
    (fun hw => absurd (h.wait_segmenter (hk.waitBlk ▸ hw)).1 hs.not_segmenter)
    (fun hb => absurd (h.block_segmenter (hk.blkHere ▸ hb)) hs.not_segmenter) fun _ => ht

/-- The same inside the segmenter, whose stages have no entry step. -/
theorem ControlOk.segmenter {s t : State} (h : ControlOk s) (hs : s.phase = .prime ∨ s.phase = .scan)
    (ht : t.phase = .prime ∨ t.phase = .scan) (hd : t.done = s.done) (hc : t.resultCode = s.resultCode)
    (hn : t.resultLen = s.resultLen) (he : t.entered = s.entered) (hw : t.waitBlk = true → t.blkHere = false) :
    ControlOk t := by
  have hidle : s.phase ≠ .idle := by obtain h | h := hs <;> simp [h]
  have hidle' : t.phase ≠ .idle := by obtain h | h := ht <;> simp [h]
  have hlegal : t.phase ≠ .reserved := by obtain h | h := ht <;> simp [h]
  exact h.running hidle hidle' hlegal hd hc hn (fun hwait => ⟨ht, hw hwait⟩) (fun _ => ht) fun hent =>
    absurd hs (PastSegmenter.not_segmenter (h.entered_stage (he ▸ hent)))

theorem pastSegmenter_detectAdvance {u : State} (hu : u.phase = .detect) : PastSegmenter (detectAdvance u) := by
  obtain ⟨-, h⟩ | ⟨-, h⟩ := detectAdvance_cases u <;> rw [h]
  · exact .inr (.inl rfl)
  · exact .inl hu

theorem CoreMove.controlOk {P : Params} {s t : State} (h : ControlOk s) (hm : CoreMove P s t) : ControlOk t := by
  have last (hp : s.phase = .decode) : PastSegmenter s := .inr (.inr (.inr hp))
  cases hm with
  | waits | idles => exact h
  | cancelled | overflows | noBits | noSymbols | exhausted => exact controlOk_raise _ _ (by decide)
  | requests _ hp hb => exact h.segmenter hp hp rfl rfl rfl rfl fun _ => hb
  | primes hw hp =>
    refine h.segmenter (.inl hp) ?_ rfl rfl rfl rfl fun _ => rfl
    by_cases hlast : s.primeCnt + 1 = P.powWin <;> simp [hlast]
  | activeBlock hw hp | idleBlock hw hp | noiseBlock hw hp =>
    exact h.segmenter (.inr hp) (.inr hp) rfl rfl rfl rfl fun _ => rfl
  | eventBlock hw hp =>
    exact h.running (by simp [hp]) (by simp [eventStep]) (by simp [eventStep]) rfl rfl rfl
      (fun hwait => absurd (hw.symm.trans hwait) (by decide)) nofun nofun
  | noWaveform _ hp => exact h.later (.inl hp) (.inr (.inl rfl)) ⟨rfl, rfl, rfl, rfl, rfl⟩
  | detectBegins _ hp => exact h.later (.inl hp) (.inl hp) ⟨rfl, rfl, rfl, rfl, rfl⟩
  | runSampled _ hp =>
    exact h.later (.inl hp) (pastSegmenter_detectAdvance (by simp [hp])) (keepsResult_runSample s).detectAdvance
  | runEnds _ hp =>
    exact h.later (.inl hp) (pastSegmenter_detectAdvance (by simp [hp])) (keepsResult_endRun P s).detectAdvance
  | sampleSkipped _ hp =>
    exact h.later (.inl hp) (pastSegmenter_detectAdvance hp) (KeepsResult.detectAdvance ⟨rfl, rfl, rfl, rfl, rfl⟩)
  | tooFewIntervals _ hp | recoverEnds _ hp =>
    exact h.later (.inr (.inl hp)) (.inr (.inr (.inl rfl))) ⟨rfl, rfl, rfl, rfl, rfl⟩
  | recoverBegins _ hp | longInterval _ hp | shortInterval _ hp =>
    exact h.later (.inr (.inl hp)) (.inr (.inl hp)) ⟨rfl, rfl, rfl, rfl, rfl⟩
  | frameBegins _ hp | symbolAccepted _ hp =>
    exact h.later (.inr (.inr (.inl hp))) (.inr (.inr (.inl hp))) ⟨rfl, rfl, rfl, rfl, rfl⟩
  | shortRead _ hp | badParity _ hp =>
    exact h.later (.inr (.inr (.inl hp))) (.inr (.inr (.inr rfl))) ⟨rfl, rfl, rfl, rfl, rfl⟩
  | decodeBegins _ hp =>
    obtain ⟨hk, hphase⟩ | ⟨-, -, hraise⟩ := s.enterDecode_keeps (Buffer.read s.syms 0)
    · exact h.later (last hp) (.inr (.inr (.inr (hphase.trans hp)))) hk
    · rw [hraise]; exact controlOk_raise _ _ (by decide)
  | symbolTaken _ hp =>
    obtain ⟨-, ht⟩ | ⟨-, -, ht⟩ | ⟨-, -, -, ht⟩ | ⟨-, -, -, ht⟩ := s.takeSymbol_cases (decodedSym s s.decJ) <;> rw [ht]
    · exact h.later (last hp) (last hp) ⟨rfl, rfl, rfl, rfl, rfl⟩
    · exact controlOk_raise _ _ (by decide)
    · exact controlOk_raise _ _ (by decide)
    · exact controlOk_raise _ _ (by decide)

theorem ControlOk.command {s t : State} (c : Command) (h : ControlOk s) (hc : exec (decodeCommand c) s = .next t) :
    ControlOk t := by
  obtain ⟨-, -, rfl⟩ | ⟨-, hp, rfl⟩ | rfl := exec_command_cases c s t hc
  · exact controlOk_startInvocation s
  · exact h.segmenter hp hp rfl rfl rfl rfl fun hw => (h.wait_segmenter hw).2
  · exact h

theorem ControlOk.port {P : Params} {s t : State} (m : PortMove) (h : ControlOk s) (hm : portStep P m s = .next t) :
    ControlOk t := by
  obtain ⟨bytes, -, hw, -, rfl⟩ | ⟨-, rfl⟩ | ⟨-, v, n, rfl⟩ := portStep_cases P m s t hm
  · obtain ⟨hp, -⟩ := h.wait_segmenter hw
    exact h.segmenter hp hp rfl rfl rfl rfl nofun
  · exact controlOk_resetStep P s
  · exact h.setOutside s.inputs v n

/-- Settles O55: the tape is no part of the invariant, and each of the core, a command and a port keeps it. -/
theorem stepsKeepControl : Obligations.StepsKeepControl := by
  intro P s t h hstep
  obtain ⟨rest, -, hcore⟩ | ⟨c, rest, -, hcmd⟩ | ⟨m, rest, -, hport⟩ := stepWith_cases P s t hstep
  · exact hcore.controlOk (h.setOutside rest s.hostSaw s.freeCnt)
  · exact (h.setOutside rest s.hostSaw s.freeCnt).command c hcmd
  · exact (h.setOutside rest s.hostSaw s.freeCnt).port m hport

end Sys2Proof.Machine
end

section
/-! PROOFS. The nine causes of an outcome (R300, R301), and the canonical form of the buffers (log 2). -/

namespace Sys2Proof.Machine

/-! ### Causes -/

/-- One of the nine causes of R301 in `s`, with the code and the LRC word that `t` holds after it. -/
def HasCause (P : Params) (s t : State) : Prop :=
  (t.resultCode = .ok ∧ s.phase = .decode ∧ s.entered = true ∧ s.decJ + 1 < s.symCnt ∧
      charOf (decodedSym s s.decJ) = endChar ∧ decodedSym s (s.decJ + 1) = t.acc) ∨
    (t.resultCode = .emptyCapture ∧ s.phase = .frame ∧ s.entered = false ∧ s.bitCnt = 0) ∨
    (t.resultCode = .emptyCapture ∧ s.phase = .decode ∧ s.entered = false ∧ s.symCnt = 0) ∨
    (t.resultCode = .missingStartSentinel ∧ s.phase = .decode ∧ s.entered = false ∧ 0 < s.symCnt ∧
      charOf (Buffer.read s.syms 0) ≠ startChar ∧ charOf (rev (Buffer.read s.syms (s.symCnt - 1))) ≠ startChar) ∨
    (t.resultCode = .missingEndSentinel ∧ s.phase = .decode ∧ s.entered = true ∧ s.symCnt ≤ s.decJ) ∨
    (t.resultCode = .badLrc ∧ s.phase = .decode ∧ s.entered = true ∧ s.decJ < s.symCnt ∧
      charOf (decodedSym s s.decJ) = endChar ∧ s.symCnt ≤ s.decJ + 1) ∨
    (t.resultCode = .badLrc ∧ s.phase = .decode ∧ s.entered = true ∧ s.decJ + 1 < s.symCnt ∧
      charOf (decodedSym s s.decJ) = endChar ∧ decodedSym s (s.decJ + 1) ≠ t.acc) ∨
    (t.resultCode = .cancelled ∧ (s.phase = .prime ∨ s.phase = .scan) ∧ s.cancelReq = true ∧ s.blkHere = false) ∨
    (t.resultCode = .captureOverflow ∧ s.phase = .scan ∧ P.maxActive = some s.actCnt ∧
      isActive P (blockPower P s) s.windowSum = true)

/-- Only OK reports characters, `OUT_LEN` of them. -/
def ReportsItsText (t : State) : Prop :=
  (t.resultCode ≠ .ok → t.resultLen = 0) ∧ (t.resultCode = .ok → t.resultLen = t.outLen)

theorem reportsItsText_raise (s : State) (c : ResultCode) : ReportsItsText (s.raise c) :=
  ⟨fun hc => if_neg hc, fun hc => if_pos hc⟩

/-- A move of the core that ends an invocation raises an outcome, for its cause. -/
theorem CoreMove.hasCause {P : Params} {s t : State} (hm : CoreMove P s t) (hs : s.done = false) (ht : t.done = true) :
    s.waitBlk = false ∧ ReportsItsText t ∧ HasCause P s t := by
  have keeps {u : State} (hu : u.done = s.done) (hdone : u.done = true) :
      s.waitBlk = false ∧ ReportsItsText u ∧ HasCause P s u := by
    rw [hu, hs] at hdone
    exact absurd hdone (by decide)
  unfold HasCause at *
  cases hm with
  | cancelled hw hp hb hc => exact ⟨hw, reportsItsText_raise _ _, by simp [hp, hb, hc]⟩
  | overflows hw hp _ ha hm => exact ⟨hw, reportsItsText_raise _ _, by simp [hp, ha, hm]⟩
  | noBits hw hp he hn => exact ⟨hw, reportsItsText_raise _ _, by simp [hp, he, hn]⟩
  | noSymbols hw hp he hn => exact ⟨hw, reportsItsText_raise _ _, by simp [hp, he, hn]⟩
  | exhausted hw hp he hn => exact ⟨hw, reportsItsText_raise _ _, by simp [hp, he, hn]⟩
  | decodeBegins hw hp he hn =>
    obtain ⟨hk, -⟩ | ⟨hfirst, hlast, hraise⟩ := s.enterDecode_keeps (Buffer.read s.syms 0)
    · exact keeps hk.done ht
    · rw [hraise]
      exact ⟨hw, reportsItsText_raise _ _, by simp [hp, he, hn, hfirst, hlast]⟩
  | symbolTaken hw hp he hn =>
    obtain ⟨-, h⟩ | ⟨hend, hlen, h⟩ | ⟨hend, hlen, hlrc, h⟩ | ⟨hend, hlen, hlrc, h⟩ :=
      s.takeSymbol_cases (decodedSym s s.decJ) <;> rw [h] at ht ⊢
    · exact keeps rfl ht
    · exact ⟨hw, reportsItsText_raise _ _, by simp [hp, he, hn, hend, hlen]⟩
    · exact ⟨hw, reportsItsText_raise _ _, by simp [hp, he, hend, hlen, hlrc]⟩
    · exact ⟨hw, reportsItsText_raise _ _, by simp [hp, he, hend, hlen, hlrc]⟩
  | runSampled => exact keeps (keepsResult_runSample s).detectAdvance.done ht
  | runEnds => exact keeps (keepsResult_endRun P s).detectAdvance.done ht
  | sampleSkipped => exact keeps (KeepsResult.detectAdvance ⟨rfl, rfl, rfl, rfl, rfl⟩).done ht
  | waits | idles | requests | primes | activeBlock | idleBlock | noiseBlock | eventBlock | noWaveform | detectBegins
  | tooFewIntervals | recoverBegins | recoverEnds | longInterval | shortInterval | frameBegins | shortRead
  | symbolAccepted | badParity => exact keeps rfl ht

theorem exec_command_not_done {c : Command} {s t : State} (h : exec (decodeCommand c) s = .next t)
    (hs : s.done = false) : t.done = false := by
  obtain ⟨-, -, rfl⟩ | ⟨-, -, rfl⟩ | rfl := exec_command_cases c s t h
  · rfl
  · exact hs
  · exact hs

theorem portStep_not_done {P : Params} {m : PortMove} {s t : State} (h : portStep P m s = .next t)
    (hs : s.done = false) : t.done = false := by
  obtain ⟨bytes, -, -, -, rfl⟩ | ⟨-, rfl⟩ | ⟨-, v, n, rfl⟩ := portStep_cases P m s t h
  · exact hs
  · rfl
  · exact hs

/-- Settles O46: no command and no port ends an invocation, and a core step ends one for its cause. -/
theorem outcomesHaveTheirCauses : Obligations.OutcomesHaveTheirCauses := by
  intro P s t hs hstep ht
  obtain ⟨rest, hin, hcore⟩ | ⟨c, rest, -, hcmd⟩ | ⟨m, rest, -, hport⟩ := stepWith_cases P s t hstep
  · obtain ⟨hw, ⟨hfail, hok⟩, hcause⟩ := hcore.hasCause hs ht
    exact ⟨hin.imp And.left fun h => ⟨rest, h⟩, hw, hfail, hok, hcause⟩
  · exact absurd ((exec_command_not_done hcmd hs).symm.trans ht) (by decide)
  · exact absurd ((portStep_not_done hport hs).symm.trans ht) (by decide)

/-! ### The canonical form -/

theorem Memory.wf_iff (s : State) : Memory.wf s = true ↔
    Buffer.wf s.blk = true ∧ Buffer.wf s.idleBuf = true ∧ Buffer.wf s.actBuf = true ∧ Buffer.wf s.wave = true ∧
      Buffer.wf s.ivl = true ∧ Buffer.wf s.bits = true ∧ Buffer.wf s.syms = true ∧ Buffer.wf s.out = true := by
  simp [Memory.wf, and_assoc]

/-- The advance, like every step that only moves registers, leaves the buffers as they are. -/
theorem Memory.wf_detectAdvance (u : State) : Memory.wf (detectAdvance u) = Memory.wf u := by
  obtain ⟨-, h⟩ | ⟨-, h⟩ := detectAdvance_cases u <;> rw [h] <;> rfl

theorem Memory.wf_resetStep (P : Params) (s : State) : Memory.wf (resetStep P s) = true :=
  rfl

theorem CoreMove.memory_wf {P : Params} {s t : State} (h : Memory.wf s = true) (hm : CoreMove P s t) :
    Memory.wf t = true := by
  obtain ⟨hblk, hidle, hact, hwave, hivl, hbits, hsyms, hout⟩ := (Memory.wf_iff s).mp h
  cases hm with
  | primes | idleBlock | noiseBlock =>
    exact (Memory.wf_iff _).mpr ⟨hblk, Buffer.wf_writeList _ _ _ hidle, hact, hwave, hivl, hbits, hsyms, hout⟩
  | activeBlock =>
    exact (Memory.wf_iff _).mpr ⟨hblk, hidle, Buffer.wf_writeList _ _ _ hact, hwave, hivl, hbits, hsyms, hout⟩
  | eventBlock =>
    exact (Memory.wf_iff _).mpr ⟨hblk, hidle, hact, Buffer.wf_writeList _ _ _ hwave, hivl, hbits, hsyms, hout⟩
  | runSampled =>
    rw [Memory.wf_detectAdvance]
    obtain hr | ⟨-, hr⟩ := runSample_cases s <;> rw [hr] <;> exact h
  | runEnds =>
    rw [Memory.wf_detectAdvance]
    obtain ⟨-, hr⟩ | ⟨-, hr⟩ := endRun_cases P s <;> rw [hr]
    · exact h
    · exact (Memory.wf_iff _).mpr ⟨hblk, hidle, hact, hwave, Buffer.wf_write _ _ _ hivl, hbits, hsyms, hout⟩
  | sampleSkipped => rwa [Memory.wf_detectAdvance]
  | longInterval | shortInterval =>
    exact (Memory.wf_iff _).mpr ⟨hblk, hidle, hact, hwave, hivl, Buffer.wf_write _ _ _ hbits, hsyms, hout⟩
  | symbolAccepted =>
    exact (Memory.wf_iff _).mpr ⟨hblk, hidle, hact, hwave, hivl, hbits, Buffer.wf_write _ _ _ hsyms, hout⟩
  | decodeBegins =>
    obtain ⟨-, hr⟩ | ⟨-, -, hr⟩ | ⟨-, -, hr⟩ := s.enterDecode_cases (Buffer.read s.syms 0) <;> rw [hr] <;> exact h
  | symbolTaken =>
    obtain ⟨-, hr⟩ | ⟨-, -, hr⟩ | ⟨-, -, -, hr⟩ | ⟨-, -, -, hr⟩ := s.takeSymbol_cases (decodedSym s s.decJ) <;> rw [hr]
    · exact (Memory.wf_iff _).mpr ⟨hblk, hidle, hact, hwave, hivl, hbits, hsyms, Buffer.wf_write _ _ _ hout⟩
    all_goals exact h
  | waits | idles | cancelled | requests | overflows | noWaveform | detectBegins | tooFewIntervals | recoverBegins
  | recoverEnds | noBits | frameBegins | shortRead | badParity | noSymbols | exhausted => exact h

theorem portStep_memory_wf {P : Params} {m : PortMove} {s t : State} (h : Memory.wf s = true)
    (hm : portStep P m s = .next t) : Memory.wf t = true := by
  obtain ⟨hblk, hrest⟩ := (Memory.wf_iff s).mp h
  obtain ⟨bytes, -, -, -, rfl⟩ | ⟨-, rfl⟩ | ⟨-, v, n, rfl⟩ := portStep_cases P m s t hm
  · exact (Memory.wf_iff _).mpr ⟨Buffer.wf_writeList _ _ _ hblk, hrest⟩
  · exact Memory.wf_resetStep P s
  · exact h

/-- Settles O58: every buffer a step changes is written through `Buffer.write` or `Buffer.writeList`, which keep the form,
or emptied by the reset. -/
theorem stepsKeepCanonicalBuffers : Obligations.StepsKeepCanonicalBuffers := by
  intro P s t h hstep
  obtain ⟨rest, -, hcore⟩ | ⟨c, rest, -, hcmd⟩ | ⟨m, rest, -, hport⟩ := stepWith_cases P s t hstep
  · exact hcore.memory_wf (s := { s with inputs := rest }) h
  · obtain ⟨-, -, rfl⟩ | ⟨-, -, rfl⟩ | rfl := exec_command_cases c _ t hcmd <;> exact h
  · exact portStep_memory_wf (s := { s with inputs := rest }) h hport

end Sys2Proof.Machine
end

section
/-! PROOFS. The four stages behind the segmenter (R180 to R250): what holds between the counts, indexes and buffers of
each, whatever the segmenter's registers hold, and that every move of the core keeps it. -/

namespace Sys2Proof.Machine

/-! ### What the stages keep -/

/-- A byte of R106 other than `?`: what the decoder outputs. -/
def IsDataChar (c : Byte) : Prop :=
  0x30#8 ≤ c ∧ c ≤ 0x3E#8

/-- What the detector hands off: intervals in range, fewer than half as many as samples. -/
def IntervalsDone (s : State) : Prop :=
  IntervalsOk s ∧ (2 * s.ivlCnt < s.waveLen ∨ s.ivlCnt = 0)

/-- The part of `StageOk` that the four later stages keep among themselves. -/
structure BackEndOk (P : Params) (s : State) : Prop where
  detecting : s.phase = .detect → s.entered = true → DetectOk s ∧ IntervalsOk s
  detected : s.phase = .recover ∨ s.phase = .frame ∨ s.phase = .decode → IntervalsDone s
  recovering : s.phase = .recover → s.entered = true →
    leadIn P + s.recI ≤ s.ivlCnt ∧ s.bitCnt ≤ s.recI ∧
      (0 < P.clkWin → s.cwin.length = P.clkWin) ∧ ∀ h ∈ s.cwin, h ≤ 2 * s.waveLen
  recovered : s.phase = .frame ∨ s.phase = .decode → s.bitCnt ≤ s.ivlCnt
  framing : s.phase = .frame → s.entered = true →
    5 * s.symCnt ≤ s.frK ∧ s.frK ≤ s.bitCnt ∧ SymbolsOk s ∧
      (s.symCnt = 0 → s.frK < s.bitCnt → Buffer.read s.bits s.frK = true)
  framed : s.phase = .decode → 5 * s.symCnt ≤ s.bitCnt ∧ SymbolsOk s
  decoding : s.phase = .decode → s.entered = true →
    s.outLen + 1 = s.decJ ∧ s.decJ ≤ s.symCnt ∧ ∀ k < s.outLen, IsDataChar (Buffer.read s.out k)

theorem StageOk.backEndOk {P : Params} {s : State} (h : StageOk P s) : BackEndOk P s where
  detecting := h.detecting
  detected := h.detected
  recovering := fun hp he =>
    have ⟨hrec, hbits, hlen, hclock⟩ := h.recovering hp he
    ⟨hrec, hbits, fun _ => hlen, hclock⟩
  recovered := h.recovered
  framing := h.framing
  framed := h.framed
  decoding := h.decoding

/-! One rule per phase to establish it. -/

theorem BackEndOk.at_rest (P : Params) {s : State} (hp : ¬ PastSegmenter s) : BackEndOk P s := by
  simp only [PastSegmenter, not_or] at hp
  obtain ⟨hdetect, hrecover, hframe, hdecode⟩ := hp
  constructor <;> simp [hdetect, hrecover, hframe, hdecode]

theorem BackEndOk.at_detect (P : Params) {s : State} (hp : s.phase = .detect)
    (h : s.entered = true → DetectOk s ∧ IntervalsOk s) : BackEndOk P s := by
  constructor <;> simp [hp]
  exact h

theorem BackEndOk.at_recover {P : Params} {s : State} (hp : s.phase = .recover) (hi : IntervalsDone s)
    (h : s.entered = true → leadIn P + s.recI ≤ s.ivlCnt ∧ s.bitCnt ≤ s.recI ∧
      (0 < P.clkWin → s.cwin.length = P.clkWin) ∧ ∀ h ∈ s.cwin, h ≤ 2 * s.waveLen) :
    BackEndOk P s := by
  constructor <;> simp [hp, hi]
  exact h

theorem BackEndOk.at_frame (P : Params) {s : State} (hp : s.phase = .frame) (hi : IntervalsDone s)
    (hb : s.bitCnt ≤ s.ivlCnt) (h : s.entered = true → 5 * s.symCnt ≤ s.frK ∧ s.frK ≤ s.bitCnt ∧ SymbolsOk s ∧
      (s.symCnt = 0 → s.frK < s.bitCnt → Buffer.read s.bits s.frK = true)) : BackEndOk P s := by
  constructor <;> simp [hp, hi, hb]
  exact h

theorem BackEndOk.at_decode (P : Params) {s : State} (hp : s.phase = .decode) (hi : IntervalsDone s)
    (hb : s.bitCnt ≤ s.ivlCnt) (hf : 5 * s.symCnt ≤ s.bitCnt ∧ SymbolsOk s)
    (h : s.entered = true → s.outLen + 1 = s.decJ ∧ s.decJ ≤ s.symCnt ∧
      ∀ k < s.outLen, IsDataChar (Buffer.read s.out k)) : BackEndOk P s := by
  constructor <;> simp [hp, hi, hb, hf]
  exact h

/-! ### DETECT -/

/-- `DetectOk` and `IntervalsOk` of the registers, with the number of samples looked at as an argument: what a sample's
effect keeps before the index moves. -/
structure DetectLinks (s : State) (n : Nat) : Prop where
  none_recorded : s.havePrev = false → s.ivlCnt = 0
  last_recorded : s.havePrev = true → s.prevIdx + 2 ≤ n ∧ 2 * s.ivlCnt ≤ s.prevIdx
  run_open : s.peak ≠ 0 → s.peakIdx < n
  run_after_last : s.peak ≠ 0 → s.havePrev = true → s.prevIdx + 2 ≤ s.peakIdx
  intervals : IntervalsOk s

theorem DetectOk.links {s : State} (h : DetectOk s) (hi : IntervalsOk s) : DetectLinks s s.detJ :=
  ⟨h.none_recorded, h.last_recorded, h.run_open, h.run_after_last, hi⟩

theorem DetectLinks.next {s : State} {n : Nat} (h : DetectLinks s n) : DetectLinks s (n + 1) where
  none_recorded := h.none_recorded
  last_recorded := fun hv => ⟨Nat.le_succ_of_le (h.last_recorded hv).1, (h.last_recorded hv).2⟩
  run_open := fun hk => Nat.lt_succ_of_lt (h.run_open hk)
  run_after_last := h.run_after_last
  intervals := h.intervals

/-- R183: a new peak is at the sample itself, at least two behind the last transition. -/
theorem DetectLinks.runSample {s : State} (h : DetectLinks s s.detJ) : DetectLinks (runSample s) (s.detJ + 1) := by
  obtain hr | ⟨-, hr⟩ := runSample_cases s <;> rw [hr]
  · exact h.next
  · exact ⟨h.none_recorded, h.next.last_recorded, fun _ => Nat.lt_succ_self _, fun _ hv => (h.last_recorded hv).1,
      h.intervals⟩

/-- An appended interval in range leaves them all in range. -/
theorem IntervalsOk.appendIvl {s : State} (h : IntervalsOk s) (x : Nat) (hlo : 2 ≤ x) (hhi : x + 1 ≤ s.waveLen) :
    IntervalsOk (s.appendIvl x) := by
  intro k hk
  obtain rfl | hne := eq_or_ne k s.ivlCnt
  · simpa using ⟨hlo, hhi⟩
  · simp only [State.appendIvl_ivl, State.appendIvl_waveLen, State.appendIvl_ivlCnt] at hk ⊢
    rw [Buffer.read_write_other _ _ _ _ hne]
    exact h k (by omega)

/-- R184: the transition is at the peak, which is before the sample and at least two behind the last transition. -/
theorem DetectLinks.endRun {s : State} (P : Params) (h : DetectLinks s s.detJ) (hk : s.peak ≠ 0)
    (hn : s.detJ < s.waveLen) : DetectLinks (endRun P s) (s.detJ + 1) := by
  have hopen := h.run_open hk
  obtain ⟨hv, hr⟩ | ⟨hv, hr⟩ := endRun_cases P s <;> rw [hr]
  · have hnone := h.none_recorded hv
    refine ⟨nofun, fun _ => ?_, fun hne => absurd rfl hne, fun hne => absurd rfl hne, h.intervals⟩
    simp only [hnone]
    omega
  · have hlast := h.last_recorded hv
    have hafter := h.run_after_last hk hv
    refine ⟨nofun, fun _ => ?_, fun hne => absurd rfl hne, fun hne => absurd rfl hne,
      h.intervals.appendIvl _ (by omega) (by omega)⟩
    simp only [State.appendIvl_ivlCnt]
    omega

/-- R186, with the count of R187 at the hand-off. -/
theorem BackEndOk.detectAdvance {P : Params} {u : State} (hp : u.phase = .detect) (hn : u.detJ < u.waveLen)
    (h : DetectLinks u (u.detJ + 1)) : BackEndOk P (detectAdvance u) := by
  obtain ⟨hlast, hr⟩ | ⟨hlast, hr⟩ := detectAdvance_cases u <;> rw [hr]
  · refine .at_recover rfl ⟨h.intervals, ?_⟩ nofun
    cases hv : u.havePrev with
    | false => exact .inr (h.none_recorded hv)
    | true =>
      have := h.last_recorded hv
      exact .inl (by simp only [State.handOff_ivlCnt, State.handOff_waveLen]; omega)
  · exact .at_detect P hp fun _ => ⟨⟨Nat.lt_of_le_of_ne hn hlast, h.none_recorded, h.last_recorded, h.run_open,
      h.run_after_last⟩, h.intervals⟩

theorem detectOk_detectEntry (P : Params) (s : State) (hn : 0 < s.waveLen) :
    DetectOk (detectEntry P s) ∧ IntervalsOk (detectEntry P s) :=
  ⟨⟨hn, fun _ => rfl, nofun, fun hk => absurd rfl hk, nofun⟩, fun _ hk => absurd hk (Nat.not_lt_zero _)⟩

/-! ### RECOVER -/

/-- R202: the seed is made of intervals. -/
theorem clock_of_seed {P : Params} {s : State} (hi : IntervalsOk s) (hn : leadIn P ≤ s.ivlCnt) :
    ∀ h ∈ Buffer.slice s.ivl P.discard P.clkWin, h ≤ 2 * s.waveLen := by
  simp only [Buffer.slice, List.mem_map, List.mem_range]
  rintro h ⟨k, hk, rfl⟩
  have hlt : P.discard + k < s.ivlCnt := by rw [leadIn] at hn; omega
  have := hi _ hlt
  omega

theorem push_length {win : List Nat} (v : Nat) (h : 0 < win.length) : (push win v).length = win.length := by
  simp only [push, List.length_append, List.length_tail, List.length_singleton]
  omega

theorem clock_push {win : List Nat} {n v : Nat} (h : ∀ x ∈ win, x ≤ n) (hv : v ≤ n) : ∀ x ∈ push win v, x ≤ n := by
  intro x hx
  obtain hx | hx := List.mem_append.mp hx
  · exact h x (List.mem_of_mem_tail hx)
  · rwa [List.mem_singleton.mp hx]

/-! ### FRAME -/

theorem getLsbD_candidate_zero (s : State) : (candidate s).getLsbD 0 = Buffer.read s.bits s.frK :=
  getLsbD_wordOfBits (fun k => Buffer.read s.bits (s.frK + k)) 0 (by decide)

/-- R224, R227: an accepted word is valid, and the first one begins with the 1 bit at which the run-out ended. -/
theorem SymbolsOk.appendSym {s : State} {w : Symbol} (h : SymbolsOk s) (ho : oddParity w = true)
    (hfirst : s.symCnt = 0 → w.getLsbD 0 = true) : SymbolsOk (s.appendSym w) := by
  refine ⟨fun k hk => ?_, fun _ => ?_⟩ <;> simp only [State.appendSym_syms]
  · obtain rfl | hne := eq_or_ne k s.symCnt
    · rwa [Buffer.read_write_same]
    · rw [Buffer.read_write_other _ _ _ _ hne]
      exact h.1 k (by simp only [State.appendSym_symCnt] at hk; omega)
  · obtain hz | hpos := Nat.eq_zero_or_pos s.symCnt
    · rw [hz, Buffer.read_write_same]
      exact hfirst hz
    · rw [Buffer.read_write_other _ _ _ _ hpos.ne]
      exact h.2 hpos

/-! ### DECODE -/

theorem isDataChar_charOf (w : Symbol) (hw : charOf w ≠ endChar) : IsDataChar (charOf w) := by
  have hval := charOf_toNat w
  have hlt := (dataBits w).isLt
  have hne : (charOf w).toNat ≠ 63 := fun h => hw (BitVec.eq_of_toNat_eq h)
  refine ⟨?_, ?_⟩ <;> rw [BitVec.le_def] <;> simp only [BitVec.toNat_ofNat] <;> omega

theorem isDataChar_write {b : Buffer Byte} {n : Nat} {c : Byte} (h : ∀ k < n, IsDataChar (Buffer.read b k))
    (hc : IsDataChar c) : ∀ k < n + 1, IsDataChar (Buffer.read (Buffer.write b n c) k) := by
  intro k hk
  obtain rfl | hne := eq_or_ne k n
  · rwa [Buffer.read_write_same]
  · rw [Buffer.read_write_other _ _ _ _ hne]
    exact h k (by omega)

/-! ### Every move keeps it -/

theorem CoreMove.backEndOk {P : Params} {s t : State} (h : BackEndOk P s) (hs : PastSegmenter s) (hm : CoreMove P s t) :
    BackEndOk P t := by
  have raised (u : State) (c : ResultCode) : BackEndOk P (u.raise c) := .at_rest P fun hp => hp.not_idle rfl
  cases hm with
  | waits | idles => exact h
  | cancelled | overflows | noBits | noSymbols | exhausted => exact raised _ _
  | requests _ hp => exact absurd hp hs.not_segmenter
  | primes _ hp => exact absurd (.inl hp) hs.not_segmenter
  | activeBlock _ hp | idleBlock _ hp | noiseBlock _ hp | eventBlock _ hp => exact absurd (.inr hp) hs.not_segmenter
  | noWaveform => exact .at_recover rfl ⟨fun _ hk => absurd hk (Nat.not_lt_zero _), .inr rfl⟩ nofun
  | detectBegins _ hp _ hn => exact .at_detect P hp fun _ => detectOk_detectEntry P s hn
  | runSampled _ hp he hn =>
    obtain ⟨hd, hi⟩ := h.detecting hp he
    exact .detectAdvance (by simpa) (by simpa) (by simpa using (hd.links hi).runSample)
  | runEnds _ hp he hn _ hk =>
    obtain ⟨hd, hi⟩ := h.detecting hp he
    exact .detectAdvance (by simpa) (by simpa) (by simpa using (hd.links hi).endRun P hk hn)
  | sampleSkipped _ hp he hn =>
    obtain ⟨hd, hi⟩ := h.detecting hp he
    exact .detectAdvance hp hn (hd.links hi).next
  | tooFewIntervals _ hp => exact .at_frame P rfl (h.detected (.inl hp)) (Nat.zero_le _) nofun
  | recoverBegins _ hp _ hn =>
    have hi := h.detected (.inl hp)
    exact .at_recover hp hi fun _ => ⟨hn, le_rfl, fun _ => Buffer.slice_length _ _ _,
      clock_of_seed hi.1 hn⟩
  | recoverEnds _ hp he =>
    obtain ⟨hrec, hbits, -, -⟩ := h.recovering hp he
    exact .at_frame P rfl (h.detected (.inl hp)) (show s.bitCnt ≤ s.ivlCnt by omega) nofun
  | longInterval _ hp he hn =>
    obtain ⟨-, hbits, hlen, hclock⟩ := h.recovering hp he
    have hi := h.detected (.inl hp)
    have hx := hi.1 (leadIn P + s.recI) (by omega)
    exact .at_recover hp hi fun _ => ⟨show leadIn P + (s.recI + 1) ≤ s.ivlCnt by omega, Nat.succ_le_succ hbits,
      fun hc => (push_length _ (hlen hc ▸ hc)).trans (hlen hc),
      clock_push hclock (show nextInterval P s ≤ 2 * s.waveLen by rw [nextInterval]; omega)⟩
  | shortInterval _ hp he hn =>
    obtain ⟨-, hbits, hlen, hclock⟩ := h.recovering hp he
    have hi := h.detected (.inl hp)
    have hx := hi.1 (leadIn P + s.recI) (by omega)
    exact .at_recover hp hi fun _ => ⟨show leadIn P + (s.recI + 2) ≤ s.ivlCnt by omega,
      show s.bitCnt + 1 ≤ s.recI + 2 by omega,
      fun hc => (push_length _ (hlen hc ▸ hc)).trans (hlen hc),
      clock_push hclock (show 2 * nextInterval P s ≤ 2 * s.waveLen by rw [nextInterval]; omega)⟩
  | frameBegins _ hp =>
    obtain ⟨hbound, -, hone⟩ := frameEntry_spec s
    exact .at_frame P hp (h.detected (.inr (.inl hp))) (h.recovered (.inl hp)) fun _ => ⟨Nat.zero_le _, hbound,
      ⟨fun _ hk => absurd hk (Nat.not_lt_zero _), fun hk => absurd hk (lt_irrefl _)⟩, fun _ => hone⟩
  | shortRead _ hp he | badParity _ hp he =>
    obtain ⟨hsyms, hfr, hok, -⟩ := h.framing hp he
    exact .at_decode P rfl (h.detected (.inr (.inl hp))) (h.recovered (.inl hp)) ⟨hsyms.trans hfr, hok⟩ nofun
  | symbolAccepted _ hp he hn ho =>
    obtain ⟨hsyms, hfr, hok, hone⟩ := h.framing hp he
    refine .at_frame P hp (h.detected (.inr (.inl hp))) (h.recovered (.inl hp)) fun _ => ⟨?_, hn,
      hok.appendSym ho fun hz => ?_, nofun⟩
    · simp only [State.acceptSymbol, State.appendSym_symCnt]; omega
    · rw [getLsbD_candidate_zero, hone hz (by omega)]
  | decodeBegins _ hp _ hn =>
    have stays {u : State} (hu : u = { s with dir := u.dir, acc := u.acc, decJ := 1, outLen := 0, entered := true }) :
        BackEndOk P u := by
      rw [hu]
      exact .at_decode P hp (h.detected (.inr (.inr hp))) (h.recovered (.inr hp)) (h.framed hp) fun _ =>
        ⟨rfl, hn, fun _ hk => absurd hk (Nat.not_lt_zero _)⟩
    obtain ⟨-, hr⟩ | ⟨-, -, hr⟩ | ⟨-, -, hr⟩ := s.enterDecode_cases (Buffer.read s.syms 0) <;> rw [hr]
    · exact stays rfl
    · exact stays rfl
    · exact raised _ _
  | symbolTaken _ hp he hn =>
    obtain ⟨hw, hr⟩ | ⟨-, -, hr⟩ | ⟨-, -, -, hr⟩ | ⟨-, -, -, hr⟩ := s.takeSymbol_cases (decodedSym s s.decJ) <;> rw [hr]
    · obtain ⟨hout, -, hchars⟩ := h.decoding hp he
      exact .at_decode P hp (h.detected (.inr (.inr hp))) (h.recovered (.inr hp)) (h.framed hp) fun _ =>
        ⟨congrArg (· + 1) hout, hn, isDataChar_write hchars (isDataChar_charOf _ hw)⟩
    all_goals exact raised _ _

end Sys2Proof.Machine
end

section
/-! PROOFS. The invariants of the stages: they hold at reset (R330), every step keeps them (R24, R165, R187, R207, R226,
R250), and they leave the core no fault (R324). -/

namespace Sys2Proof.Machine

/-! ### At reset -/

theorem controlOk_resetFor (P : Params) : ControlOk (State.resetFor P) := by
  constructor <;> simp [State.resetFor]

theorem rangesOk_resetFor (P : Params) : RangesOk P (State.resetFor P) := by
  constructor <;> simp [State.resetFor, unwritten]

theorem widthsOk_resetFor (P : Params) : WidthsOk P (State.resetFor P) := by
  intro n _
  constructor <;> simp [State.resetFor, unwritten]

theorem stageOk_resetFor (P : Params) : StageOk P (State.resetFor P) := by
  constructor <;> simp [State.resetFor, PastSegmenter]

/-- Settles O54: one lemma per invariant, at the zero values of the model (log 1). -/
theorem resetHasTheInvariants : Obligations.ResetHasTheInvariants :=
  ⟨fun P => ⟨controlOk_resetFor P, rangesOk_resetFor P, widthsOk_resetFor P, stageOk_resetFor P, rfl⟩,
    by decide, by decide⟩

/-! ### Establishing the stage invariant, phase by phase -/

theorem ControlOk.not_done {s : State} (h : ControlOk s) (hp : s.phase ≠ .idle) : s.done = false := by
  by_contra hd
  exact hp (h.done_idle (by simpa using hd))

theorem StageOk.at_idle {P : Params} {s : State} (hp : s.phase = .idle) (hwin : s.pwin.length = P.powWin)
    (hrep : s.done = true → ∀ k < s.resultLen, IsDataChar (Buffer.read s.out k)) : StageOk P s := by
  constructor
  case reported => exact hrep
  all_goals simp [hp, hwin, PastSegmenter]

theorem StageOk.at_prime {P : Params} {s : State} (hp : s.phase = .prime) (hd : s.done = false)
    (hwin : s.pwin.length = P.powWin) (hn : s.primeCnt < P.powWin) (ha : s.actCnt = 0) : StageOk P s := by
  constructor <;> simp [hp, hwin, hd, hn, ha, PastSegmenter]

theorem StageOk.at_scan {P : Params} {s : State} (hp : s.phase = .scan) (hd : s.done = false)
    (hwin : s.pwin.length = P.powWin) (hn : s.primeCnt = P.powWin) : StageOk P s := by
  constructor <;> simp [hp, hwin, hd, hn, PastSegmenter]

theorem StageOk.at_later {P : Params} {s : State} (hc : 0 < P.clkWin) (hp : PastSegmenter s) (hd : s.done = false)
    (hwin : s.pwin.length = P.powWin) (hn : s.primeCnt = P.powWin)
    (he : 2 ≤ s.actCnt ∧ s.waveLen ≤ (s.actCnt + 2) * P.blockN) (hb : BackEndOk P s) : StageOk P s where
  window_length := hwin
  priming := fun h => absurd (.inl h) hp.not_segmenter
  primed := fun _ => hn
  event_size := fun _ => he
  detecting := hb.detecting
  detected := hb.detected
  recovering := fun h h' =>
    have ⟨hrec, hbits, hlen, hclock⟩ := hb.recovering h h'
    ⟨hrec, hbits, hlen hc, hclock⟩
  recovered := hb.recovered
  framing := hb.framing
  framed := hb.framed
  decoding := hb.decoding
  reported := fun hdone => absurd (hd.symm.trans hdone) (by decide)

/-- No clause is about the ports, the latch, or `BLK`. -/
theorem StageOk.setOutside {P : Params} {s : State} (h : StageOk P s) (i : List Move) (v : HostView) (n : Nat)
    (b : Buffer RawSample) (c w k : Bool) : StageOk P { s with
      inputs := i, hostSaw := v, freeCnt := n, blk := b, cancelReq := c, waitBlk := w, blkHere := k } :=
  have detecting (hp : s.phase = .detect) (he : s.entered = true) :=
    have ⟨hd, hi⟩ := h.detecting hp he
    ⟨⟨hd.index_inside, hd.none_recorded, hd.last_recorded, hd.run_open, hd.run_after_last⟩, hi⟩
  ⟨h.window_length, h.priming, h.primed, h.event_size, detecting, h.detected, h.recovering, h.recovered, h.framing,
    h.framed, h.decoding, h.reported⟩

/-! ### Behind the segmenter -/

/-- The registers that the segmenter leaves behind it. -/
structure KeepsFront (s t : State) : Prop where
  pwin : t.pwin = s.pwin
  primeCnt : t.primeCnt = s.primeCnt
  actCnt : t.actCnt = s.actCnt
  waveLen : t.waveLen = s.waveLen

theorem keepsFront_runSample (s : State) : KeepsFront s (runSample s) := by
  obtain h | ⟨-, h⟩ := runSample_cases s <;> rw [h] <;> exact ⟨rfl, rfl, rfl, rfl⟩

theorem keepsFront_endRun (P : Params) (s : State) : KeepsFront s (endRun P s) := by
  obtain ⟨-, h⟩ | ⟨-, h⟩ := endRun_cases P s <;> rw [h] <;> exact ⟨rfl, rfl, rfl, rfl⟩

theorem KeepsFront.detectAdvance {s u : State} (h : KeepsFront s u) : KeepsFront s (detectAdvance u) := by
  obtain ⟨hw, hn, ha, hl⟩ := h
  obtain ⟨-, h⟩ | ⟨-, h⟩ := detectAdvance_cases u <;> rw [h] <;> exact ⟨hw, hn, ha, hl⟩

theorem keepsFront_enterDecode (w : Symbol) (s : State) : KeepsFront s (s.enterDecode w) := by
  obtain ⟨-, h⟩ | ⟨-, -, h⟩ | ⟨-, -, h⟩ := s.enterDecode_cases w <;> rw [h] <;> exact ⟨rfl, rfl, rfl, rfl⟩

theorem keepsFront_takeSymbol (w : Symbol) (s : State) : KeepsFront s (s.takeSymbol w) := by
  obtain ⟨-, h⟩ | ⟨-, -, h⟩ | ⟨-, -, -, h⟩ | ⟨-, -, -, h⟩ := s.takeSymbol_cases w <;> rw [h] <;>
    exact ⟨rfl, rfl, rfl, rfl⟩

theorem CoreMove.keepsFront {P : Params} {s t : State} (hm : CoreMove P s t) (hs : PastSegmenter s) :
    KeepsFront s t := by
  cases hm with
  | primes _ hp => exact absurd (.inl hp) hs.not_segmenter
  | activeBlock _ hp | idleBlock _ hp | noiseBlock _ hp | eventBlock _ hp => exact absurd (.inr hp) hs.not_segmenter
  | runSampled => exact (keepsFront_runSample s).detectAdvance
  | runEnds => exact (keepsFront_endRun P s).detectAdvance
  | sampleSkipped => exact KeepsFront.detectAdvance ⟨rfl, rfl, rfl, rfl⟩
  | decodeBegins => exact keepsFront_enterDecode _ s
  | symbolTaken => exact keepsFront_takeSymbol _ s
  | waits | idles | cancelled | requests | overflows | noWaveform | detectBegins | tooFewIntervals | recoverBegins
  | recoverEnds | longInterval | shortInterval | noBits | frameBegins | shortRead | symbolAccepted | badParity
  | noSymbols | exhausted => exact ⟨rfl, rfl, rfl, rfl⟩

/-- R137: a move behind the segmenter stays there or ends the invocation. -/
theorem CoreMove.later_or_ended {P : Params} {s t : State} (hm : CoreMove P s t) (hs : PastSegmenter s) :
    PastSegmenter t ∨ t.phase = .idle ∧ t.done = true := by
  cases hm.phaseMove with
  | stays h => exact .inl (by simpa only [PastSegmenter, h] using hs)
  | begins hp => exact absurd hp hs.not_idle
  | primed hp => exact absurd (.inl hp) hs.not_segmenter
  | captured hp => exact absurd (.inr hp) hs.not_segmenter
  | detected _ ht => exact .inl (.inr (.inl ht))
  | recovered _ ht => exact .inl (.inr (.inr (.inl ht)))
  | framed _ ht => exact .inl (.inr (.inr (.inr ht)))
  | ended ht hd => exact .inr ⟨ht, hd⟩

/-- R250, R309: what a move reports is what the decoder has output. -/
theorem CoreMove.reports_output {P : Params} {s t : State} (hm : CoreMove P s t) (hs : s.done = false)
    (ht : t.done = true) :
    t.resultLen = 0 ∨ s.phase = .decode ∧ s.entered = true ∧ t.resultLen = s.outLen ∧ t.out = s.out := by
  obtain ⟨-, ⟨hfail, -⟩, hcause⟩ := hm.hasCause hs ht
  by_cases hok : t.resultCode = .ok
  · obtain ⟨hp, he⟩ : s.phase = .decode ∧ s.entered = true := by
      simp only [HasCause, hok, reduceCtorEq, false_and, or_false, true_and] at hcause
      exact ⟨hcause.1, hcause.2.1⟩
    refine .inr ⟨hp, he, ?_⟩
    cases hm with
    | symbolTaken =>
      obtain ⟨-, h⟩ | ⟨-, -, h⟩ | ⟨-, -, -, h⟩ | ⟨-, -, -, h⟩ := s.takeSymbol_cases (decodedSym s s.decJ) <;>
        rw [h] at ht hok ⊢
      · exact absurd (hs.symm.trans ht) (by decide)
      · cases hok
      · cases hok
      · exact ⟨rfl, rfl⟩
    | exhausted => cases hok
    | _ => simp_all -- the moves of another phase and of the entry step
  · exact .inl (hfail hok)

theorem CoreMove.stageOk_later {P : Params} {s t : State} (hc : 0 < P.clkWin) (hctl : ControlOk s) (h : StageOk P s)
    (hs : PastSegmenter s) (hm : CoreMove P s t) : StageOk P t := by
  obtain ⟨hwin, hn, ha, hl⟩ := hm.keepsFront hs
  have hwin : t.pwin.length = P.powWin := hwin ▸ h.window_length
  obtain hlater | ⟨hidle, -⟩ := hm.later_or_ended hs
  · exact .at_later hc hlater ((hm.controlOk hctl).not_done hlater.not_idle) hwin (hn ▸ h.primed (.inr hs))
      (by rw [ha, hl]; exact h.event_size hs) (hm.backEndOk h.backEndOk hs)
  · refine .at_idle hidle hwin fun ht => ?_
    obtain hzero | ⟨hp, he, hlen, hout⟩ := hm.reports_output (hctl.not_done hs.not_idle) ht
    · exact fun k hk => absurd (hzero ▸ hk) (Nat.not_lt_zero k)
    · rw [hlen, hout]
      exact (h.decoding hp he).2.2

/-! ### In the segmenter -/

theorem trimFront_sublist (P : Params) (sw fuel : Nat) (w : List Int) : (trimFront P sw fuel w).Sublist w := by
  obtain ⟨a, -, h, -⟩ := trimFront_spec P sw fuel w
  exact h ▸ List.drop_sublist _ w

theorem trimBack_sublist (P : Params) (sw fuel : Nat) (w : List Int) : (trimBack P sw fuel w).Sublist w := by
  obtain ⟨b, -, h, -⟩ := trimBack_spec P sw fuel w
  exact h ▸ List.take_sublist _ w

theorem trimmedEvent_sublist (P : Params) (s : State) : (trimmedEvent P s).Sublist (rawEvent P s) :=
  (trimBack_sublist P _ _ _).trans (trimFront_sublist P _ _ _)

/-- R165: trimming drops samples, so the event is no longer than its blocks. -/
theorem trimmedEvent_length_le (P : Params) (s : State) : (trimmedEvent P s).length ≤ (s.actCnt + 2) * P.blockN :=
  rawEvent_length P s ▸ (trimmedEvent_sublist P s).length_le

theorem eventWave_length (P : Params) (s : State) : (eventWave P s).length = (trimmedEvent P s).length := by
  simp [eventWave, finalBias]

theorem CoreMove.stageOk {P : Params} {s t : State} (hwf : P.wellFormed = true) (hctl : ControlOk s) (h : StageOk P s)
    (hm : CoreMove P s t) : StageOk P t := by
  obtain ⟨-, hpow, -, -, hclk, -⟩ := (Params.wellFormed_iff P).mp hwf
  have hlater := fun hs => hm.stageOk_later hclk hctl h hs
  have hwin := h.window_length
  have pushed (v : Nat) : (push s.pwin v).length = P.powWin := (push_length v (hwin ▸ hpow)).trans hwin
  have raised {u : State} (c : ResultCode) (hu : u.pwin = s.pwin) (hc : c ≠ .ok) : StageOk P (u.raise c) :=
    .at_idle rfl (by simpa [hu] using hwin) fun _ k hk => by simp [hc] at hk
  cases hm with
  | waits | idles => exact h
  | cancelled | overflows => exact raised _ rfl (by decide)
  | requests => exact h.setOutside s.inputs s.hostSaw s.freeCnt s.blk s.cancelReq true s.blkHere
  | primes _ hp =>
    obtain ⟨hn, ha⟩ := h.priming hp
    have hd := hctl.not_done (by simp [hp])
    by_cases hlast : s.primeCnt + 1 = P.powWin
    · exact .at_scan (by simp [hlast]) hd (by simpa using hwin) hlast
    · exact .at_prime (by simp [hlast]) hd (by simpa using hwin) (Nat.lt_of_le_of_ne hn hlast) ha
  | activeBlock _ hp => exact .at_scan hp (hctl.not_done (by simp [hp])) hwin (h.primed (.inl hp))
  | idleBlock _ hp | noiseBlock _ hp => exact .at_scan hp (hctl.not_done (by simp [hp])) (pushed _) (h.primed (.inl hp))
  | eventBlock _ hp _ _ hn =>
    exact .at_later hclk (.inl rfl) (hctl.not_done (by simp [hp])) hwin (h.primed (.inl hp))
      ⟨hn, (eventWave_length P s).trans_le (trimmedEvent_length_le P s)⟩ (.at_detect P rfl nofun)
  | noWaveform _ hp | detectBegins _ hp | runSampled _ hp | runEnds _ hp | sampleSkipped _ hp => exact hlater (.inl hp)
  | tooFewIntervals _ hp | recoverBegins _ hp | recoverEnds _ hp | longInterval _ hp | shortInterval _ hp =>
    exact hlater (.inr (.inl hp))
  | noBits _ hp | frameBegins _ hp | shortRead _ hp | symbolAccepted _ hp | badParity _ hp =>
    exact hlater (.inr (.inr (.inl hp)))
  | noSymbols _ hp | decodeBegins _ hp | exhausted _ hp | symbolTaken _ hp => exact hlater (.inr (.inr (.inr hp)))

/-! ### Commands and ports -/

theorem StageOk.command {P : Params} {s t : State} (hwf : P.wellFormed = true) (c : Command) (h : StageOk P s)
    (hc : exec (decodeCommand c) s = .next t) : StageOk P t := by
  obtain ⟨-, hpow, -⟩ := (Params.wellFormed_iff P).mp hwf
  obtain ⟨-, -, rfl⟩ | ⟨-, -, rfl⟩ | rfl := exec_command_cases c s t hc
  · exact .at_prime rfl rfl h.window_length hpow rfl
  · exact h.setOutside s.inputs s.hostSaw s.freeCnt s.blk true s.waitBlk s.blkHere
  · exact h

theorem StageOk.port {P : Params} {s t : State} (m : PortMove) (h : StageOk P s) (hm : portStep P m s = .next t) :
    StageOk P t := by
  obtain ⟨bytes, -, -, -, rfl⟩ | ⟨-, rfl⟩ | ⟨-, v, n, rfl⟩ := portStep_cases P m s t hm
  · exact h.setOutside s.inputs s.hostSaw s.freeCnt _ s.cancelReq false true
  · exact (stageOk_resetFor P).setOutside s.inputs s.hostSaw s.freeCnt [] false false false
  · exact h.setOutside s.inputs v n s.blk s.cancelReq s.waitBlk s.blkHere

/-- Settles O57: the tape is no part of the invariant, and each of the core, a command and a port keeps it. -/
theorem stepsKeepStages : Obligations.StepsKeepStages := by
  intro P s t hwf hctl h hstep
  have hctl (rest : List Move) := hctl.setOutside rest s.hostSaw s.freeCnt
  have h (rest : List Move) := h.setOutside rest s.hostSaw s.freeCnt s.blk s.cancelReq s.waitBlk s.blkHere
  obtain ⟨rest, -, hcore⟩ | ⟨c, rest, -, hcmd⟩ | ⟨m, rest, -, hport⟩ := stepWith_cases P s t hstep
  · exact hcore.stageOk hwf (hctl rest) (h rest)
  · exact (h rest).command hwf c hcmd
  · exact (h rest).port m hport

/-! ### No fault -/

/-- R342, R187: behind the segmenter every core step goes on. -/
theorem BackEndOk.coreStep_next {P : Params} {s : State} (h : BackEndOk P s) (hs : PastSegmenter s) :
    ∃ t, coreStep P s = .next t := by
  cases hw : s.waitBlk with
  | true => exact ⟨s, coreStep_waiting P s hw⟩
  | false =>
    cases he : s.entered with
    | false =>
      obtain hp | hp | hp | hp := hs
      · obtain hn | hn := Nat.eq_zero_or_pos s.waveLen
        · exact ⟨_, coreStep_detect_empty P s hw hp he hn⟩
        · exact ⟨_, coreStep_detect_entry P s hw hp he hn⟩
      · exact ⟨_, coreStep_recover P s hw hp⟩
      · exact ⟨_, coreStep_frame_entry P s hw hp he⟩
      · obtain hn | hn := Nat.eq_zero_or_pos s.symCnt
        · exact ⟨_, coreStep_decode_empty P s hw hp he hn⟩
        · exact ⟨_, coreStep_decode_entry P s hw hp he hn⟩
    | true =>
      obtain hp | hp | hp | hp := hs
      · obtain ⟨hd, -⟩ := h.detecting hp he
        cases ha : aboveThr P s with
        | true => exact ⟨_, coreStep_detect_run P s hw hp he hd.index_inside ha⟩
        | false =>
          by_cases hk : s.peak = 0
          · exact ⟨_, coreStep_detect_quiet P s hw hp he hd.index_inside ha hk⟩
          · have hi (hv : s.havePrev = true) : s.prevIdx ≤ s.peakIdx := by
              have := hd.run_after_last hk hv
              omega
            exact ⟨_, coreStep_detect_end P s hw hp he hd.index_inside ha hk hi⟩
      · exact ⟨_, coreStep_recover P s hw hp⟩
      · obtain hn | hn := Nat.lt_or_ge s.bitCnt (s.frK + 5)
        · exact ⟨_, coreStep_frame_short P s hw hp he hn⟩
        · exact ⟨_, coreStep_frame_candidate P s hw hp he hn⟩
      · obtain hn | hn := Nat.lt_or_ge s.decJ s.symCnt
        · exact ⟨_, coreStep_decode_body P s hw hp he hn⟩
        · exact ⟨_, coreStep_decode_exhausted P s hw hp he hn⟩

theorem StageOk.coreStep_next {P : Params} {s : State} (h : StageOk P s) (hctl : ControlOk s) :
    ∃ t, coreStep P s = .next t := by
  cases hw : s.waitBlk with
  | true => exact ⟨s, coreStep_waiting P s hw⟩
  | false =>
    cases hp : s.phase with
    | idle => exact ⟨s, coreStep_idle P s hw hp⟩
    | reserved => exact absurd hp hctl.phase_legal
    | prime =>
      cases hb : s.blkHere with
      | false => exact ⟨_, coreStep_beginBlock P s (.inl hp) hw hb⟩
      | true => exact ⟨_, (coreStep_primeBlock P s hp hw hb).trans (primeStep_of_lt P s (h.priming hp).1)⟩
    | scan =>
      cases hb : s.blkHere with
      | false => exact ⟨_, coreStep_beginBlock P s (.inr hp) hw hb⟩
      | true => exact ⟨_, coreStep_scanBlock P s hp hw hb⟩
    | detect => exact h.backEndOk.coreStep_next (.inl hp)
    | recover => exact h.backEndOk.coreStep_next (.inr (.inl hp))
    | frame => exact h.backEndOk.coreStep_next (.inr (.inr (.inl hp)))
    | decode => exact h.backEndOk.coreStep_next (.inr (.inr (.inr hp)))

theorem exec_command_not_fault (c : Command) (s : State) (r : Fault) : exec (decodeCommand c) s ≠ .fault r := by
  have hc : decodeCommand c = .nop ∨ decodeCommand c = .start ∨ decodeCommand c = .cancel ∨
      decodeCommand c = .reservedCmd := by
    revert c
    decide
  obtain hc | hc | hc | hc := hc <;> rw [hc]
  · simp
  · by_cases hp : s.phase = .idle <;> simp [hp]
  · by_cases hp : s.phase = .prime ∨ s.phase = .scan
    · simp [hp]
    · obtain ⟨hprime, hscan⟩ := not_or.mp hp
      simp [hprime, hscan]
  · simp

theorem portStep_not_fault (P : Params) (m : PortMove) (s : State) (r : Fault) (hc : s.resultCode ≠ .reserved) :
    portStep P m s ≠ .fault r := by
  cases m with
  | deliver bytes =>
    simp only [portStep, deliverStep]
    split_ifs <;> simp
  | reset => simp [portStep]
  | readStatus => simp [portStep, readStatusStep_of_legal s hc]
  | readLen => simp [portStep]
  | readOut k =>
    simp only [portStep, readOutMove]
    split_ifs <;> simp

/-- Settles O59: with the invariants a core step goes on (`StageOk.coreStep_next`), no command faults, and a host read of
`STATUS` faults on an illegal outcome only. -/
theorem theCoreHasNoFault : Obligations.TheCoreHasNoFault := by
  intro P s r _ hctl h hfault
  have hcore (rest : List Move) : ∃ t, coreStep P { s with inputs := rest } = .next t :=
    StageOk.coreStep_next (h.setOutside rest s.hostSaw s.freeCnt s.blk s.cancelReq s.waitBlk s.blkHere)
      (hctl.setOutside rest s.hostSaw s.freeCnt)
  match hin : s.inputs with
  | [] =>
    obtain ⟨t, ht⟩ := h.coreStep_next hctl
    rw [stepWith_silent P s hin, ht] at hfault
    cases hfault
  | .core :: rest =>
    obtain ⟨t, ht⟩ := hcore rest
    rw [stepWith_core P s rest hin, ht] at hfault
    cases hfault
  | .command c :: rest => exact exec_command_not_fault c _ r (stepWith_command P s c rest hin ▸ hfault)
  | .port m :: rest =>
    exact portStep_not_fault P m { s with inputs := rest } r hctl.outcome_legal (stepWith_port P s m rest hin ▸ hfault)

end Sys2Proof.Machine
end

section
/-! PROOFS. From the hand-off to DETECT on the invocation ends (R140): a count of the steps that are left goes down in every
core step. -/

namespace Sys2Proof.Machine

/-- At most so many core steps are left to the outcome: the samples, the intervals, the bits and the symbols that are still
to be read, the stages behind included, and an entry and an exit step for each stage. -/
def stepsLeft (s : State) : Nat :=
  match s.phase, s.entered with
  | .detect, false => 4 * s.waveLen + 7
  | .detect, true => (s.waveLen - s.detJ) + 3 * s.waveLen + 6
  | .recover, false => 3 * s.ivlCnt + 6
  | .recover, true => (s.ivlCnt - s.recI) + 2 * s.ivlCnt + 5
  | .frame, false => 2 * s.bitCnt + 4
  | .frame, true => (s.bitCnt - s.frK) + s.bitCnt + 3
  | .decode, false => s.symCnt + 2
  | .decode, true => (s.symCnt - s.decJ) + 1
  | _, _ => 0

/-! What it is in each stage. -/

theorem stepsLeft_detect_entry {s : State} (hp : s.phase = .detect) (he : s.entered = false) :
    stepsLeft s = 4 * s.waveLen + 7 := by simp only [stepsLeft, hp, he]

theorem stepsLeft_detect {s : State} (hp : s.phase = .detect) (he : s.entered = true) :
    stepsLeft s = (s.waveLen - s.detJ) + 3 * s.waveLen + 6 := by simp only [stepsLeft, hp, he]

theorem stepsLeft_recover_entry {s : State} (hp : s.phase = .recover) (he : s.entered = false) :
    stepsLeft s = 3 * s.ivlCnt + 6 := by simp only [stepsLeft, hp, he]

theorem stepsLeft_recover {s : State} (hp : s.phase = .recover) (he : s.entered = true) :
    stepsLeft s = (s.ivlCnt - s.recI) + 2 * s.ivlCnt + 5 := by simp only [stepsLeft, hp, he]

theorem stepsLeft_frame_entry {s : State} (hp : s.phase = .frame) (he : s.entered = false) :
    stepsLeft s = 2 * s.bitCnt + 4 := by simp only [stepsLeft, hp, he]

theorem stepsLeft_frame {s : State} (hp : s.phase = .frame) (he : s.entered = true) :
    stepsLeft s = (s.bitCnt - s.frK) + s.bitCnt + 3 := by simp only [stepsLeft, hp, he]

theorem stepsLeft_decode_entry {s : State} (hp : s.phase = .decode) (he : s.entered = false) :
    stepsLeft s = s.symCnt + 2 := by simp only [stepsLeft, hp, he]

theorem stepsLeft_decode {s : State} (hp : s.phase = .decode) (he : s.entered = true) :
    stepsLeft s = (s.symCnt - s.decJ) + 1 := by simp only [stepsLeft, hp, he]

/-! It goes down in every step of the core. -/

theorem stepsLeft_lt_of_eq {s t : State} {m n : Nat} (hs : stepsLeft s = m) (ht : stepsLeft t = n) (h : n < m) :
    stepsLeft t < stepsLeft s := by
  rwa [hs, ht]

/-- R186: a sample is looked at, or with the last one the intervals are handed off, fewer than samples. -/
theorem stepsLeft_detectAdvance {u : State} (hp : u.phase = .detect) (he : u.entered = true) (hn : u.detJ < u.waveLen)
    (h : DetectLinks u (u.detJ + 1)) : stepsLeft (detectAdvance u) < stepsLeft u := by
  have hivl : u.ivlCnt ≤ u.waveLen := by
    cases hv : u.havePrev with
    | false => rw [h.none_recorded hv]; exact Nat.zero_le _
    | true => have := h.last_recorded hv; omega
  obtain ⟨-, hr⟩ | ⟨-, hr⟩ := detectAdvance_cases u <;> rw [hr]
  · refine stepsLeft_lt_of_eq (stepsLeft_detect hp he) (stepsLeft_recover_entry rfl rfl) ?_
    simp only [State.handOff_ivlCnt]
    omega
  · refine stepsLeft_lt_of_eq (stepsLeft_detect hp he) (stepsLeft_detect hp he) ?_
    simp only
    omega

/-- What a sample's effect leaves alone, the advance being still to come. -/
structure KeepsSample (s u : State) : Prop where
  phase : u.phase = s.phase
  entered : u.entered = s.entered
  detJ : u.detJ = s.detJ
  waveLen : u.waveLen = s.waveLen

theorem keepsSample_runSample (s : State) : KeepsSample s (runSample s) := by
  obtain h | ⟨-, h⟩ := runSample_cases s <;> rw [h] <;> exact ⟨rfl, rfl, rfl, rfl⟩

theorem keepsSample_endRun (P : Params) (s : State) : KeepsSample s (endRun P s) := by
  obtain ⟨-, h⟩ | ⟨-, h⟩ := endRun_cases P s <;> rw [h] <;> exact ⟨rfl, rfl, rfl, rfl⟩

theorem KeepsSample.stepsLeft_lt {s u : State} (hk : KeepsSample s u) (hp : s.phase = .detect) (he : s.entered = true)
    (hn : s.detJ < s.waveLen) (h : DetectLinks u (s.detJ + 1)) : stepsLeft (detectAdvance u) < stepsLeft s := by
  obtain ⟨hph, hen, hj, hl⟩ := hk
  have hlt := stepsLeft_detectAdvance (hph.trans hp) (hen.trans he) (by rwa [hj, hl]) (hj ▸ h)
  rwa [stepsLeft_detect (hph.trans hp) (hen.trans he), hj, hl, ← stepsLeft_detect hp he] at hlt

/-- Behind the segmenter a move of the core ends the invocation or leaves fewer steps. -/
theorem CoreMove.stepsLeft_lt {P : Params} {s t : State} (hm : CoreMove P s t) (h : BackEndOk P s)
    (hs : PastSegmenter s) (hw : s.waitBlk = false) : t.phase = .idle ∨ stepsLeft t < stepsLeft s := by
  cases hm with
  | waits hwait => exact absurd (hw.symm.trans hwait) (by decide)
  | idles _ hp => exact .inl hp
  | cancelled | overflows | noBits | noSymbols | exhausted => exact .inl rfl
  | requests _ hp => exact absurd hp hs.not_segmenter
  | primes _ hp => exact absurd (.inl hp) hs.not_segmenter
  | activeBlock _ hp | idleBlock _ hp | noiseBlock _ hp | eventBlock _ hp => exact absurd (.inr hp) hs.not_segmenter
  | noWaveform _ hp he =>
    refine .inr (stepsLeft_lt_of_eq (stepsLeft_detect_entry hp he) (stepsLeft_recover_entry rfl rfl) ?_)
    simp only [detectEmpty]
    omega
  | detectBegins _ hp he =>
    refine .inr (stepsLeft_lt_of_eq (stepsLeft_detect_entry hp he) (stepsLeft_detect hp rfl) ?_)
    simp only [detectEntry]
    omega
  | runSampled _ hp he hn =>
    obtain ⟨hd, hi⟩ := h.detecting hp he
    exact .inr ((keepsSample_runSample s).stepsLeft_lt hp he hn (hd.links hi).runSample)
  | runEnds _ hp he hn _ hk =>
    obtain ⟨hd, hi⟩ := h.detecting hp he
    exact .inr ((keepsSample_endRun P s).stepsLeft_lt hp he hn ((hd.links hi).endRun P hk hn))
  | sampleSkipped _ hp he hn =>
    obtain ⟨hd, hi⟩ := h.detecting hp he
    exact .inr (stepsLeft_detectAdvance hp he hn (hd.links hi).next)
  | tooFewIntervals _ hp he =>
    refine .inr (stepsLeft_lt_of_eq (stepsLeft_recover_entry hp he) (stepsLeft_frame_entry rfl rfl) ?_)
    simp only [recoverTooFew]
    omega
  | recoverBegins _ hp he =>
    refine .inr (stepsLeft_lt_of_eq (stepsLeft_recover_entry hp he) (stepsLeft_recover hp rfl) ?_)
    simp only [recoverSeed]
    omega
  | recoverEnds _ hp he =>
    obtain ⟨hrec, hbits, -, -⟩ := h.recovering hp he
    refine .inr (stepsLeft_lt_of_eq (stepsLeft_recover hp he) (stepsLeft_frame_entry rfl rfl) ?_)
    simp only [State.handOff_bitCnt]
    omega
  | longInterval _ hp he hn =>
    refine .inr (stepsLeft_lt_of_eq (stepsLeft_recover hp he) (stepsLeft_recover hp he) ?_)
    simp only [longCell, State.appendBit_ivlCnt]
    omega
  | shortInterval _ hp he hn =>
    refine .inr (stepsLeft_lt_of_eq (stepsLeft_recover hp he) (stepsLeft_recover hp he) ?_)
    simp only [shortCells, State.appendBit_ivlCnt]
    omega
  | frameBegins _ hp he =>
    refine .inr (stepsLeft_lt_of_eq (stepsLeft_frame_entry hp he) (stepsLeft_frame hp rfl) ?_)
    simp only [frameEntry]
    omega
  | shortRead _ hp he | badParity _ hp he =>
    obtain ⟨hsyms, hfr, -, -⟩ := h.framing hp he
    refine .inr (stepsLeft_lt_of_eq (stepsLeft_frame hp he) (stepsLeft_decode_entry rfl rfl) ?_)
    simp only [State.handOff_symCnt]
    omega
  | symbolAccepted _ hp he hn =>
    refine .inr (stepsLeft_lt_of_eq (stepsLeft_frame hp he) (stepsLeft_frame hp he) ?_)
    simp only [State.acceptSymbol, State.appendSym_bitCnt]
    omega
  | decodeBegins _ hp he hn =>
    obtain ⟨-, hr⟩ | ⟨-, -, hr⟩ | ⟨-, -, hr⟩ := s.enterDecode_cases (Buffer.read s.syms 0) <;> rw [hr]
    · exact .inr (stepsLeft_lt_of_eq (stepsLeft_decode_entry hp he) (stepsLeft_decode hp rfl) (by simp only; omega))
    · exact .inr (stepsLeft_lt_of_eq (stepsLeft_decode_entry hp he) (stepsLeft_decode hp rfl) (by simp only; omega))
    · exact .inl rfl
  | symbolTaken _ hp he hn =>
    obtain ⟨-, hr⟩ | ⟨-, -, hr⟩ | ⟨-, -, -, hr⟩ | ⟨-, -, -, hr⟩ := s.takeSymbol_cases (decodedSym s s.decJ) <;> rw [hr]
    · refine .inr (stepsLeft_lt_of_eq (stepsLeft_decode hp he) (stepsLeft_decode hp he) ?_)
      simp only [State.takeData, State.appendOut_symCnt]
      omega
    all_goals exact .inl rfl

/-- Behind the segmenter nothing is requested. -/
theorem CoreMove.keeps_not_waiting {P : Params} {s t : State} (hm : CoreMove P s t) (hs : PastSegmenter s)
    (hw : s.waitBlk = false) : t.waitBlk = false := by
  cases hm with
  | requests _ hp => exact absurd hp hs.not_segmenter
  | runSampled => exact (keepsResult_runSample s).detectAdvance.waitBlk.trans hw
  | runEnds => exact (keepsResult_endRun P s).detectAdvance.waitBlk.trans hw
  | sampleSkipped => exact (KeepsResult.detectAdvance (s := s) ⟨rfl, rfl, rfl, rfl, rfl⟩).waitBlk.trans hw
  | decodeBegins =>
    obtain ⟨hk, -⟩ | ⟨-, -, hr⟩ := s.enterDecode_keeps (Buffer.read s.syms 0)
    · exact hk.waitBlk.trans hw
    · rw [hr]; rfl
  | symbolTaken =>
    obtain ⟨-, hr⟩ | ⟨-, -, hr⟩ | ⟨-, -, -, hr⟩ | ⟨-, -, -, hr⟩ := s.takeSymbol_cases (decodedSym s s.decJ) <;> rw [hr]
    · exact hw
    all_goals rfl
  | cancelled | overflows | noBits | noSymbols | exhausted => rfl
  | _ => exact hw

/-- Behind the segmenter on a silent tape. -/
structure BackEndRun (P : Params) (s : State) : Prop where
  ok : BackEndOk P s
  later : PastSegmenter s
  waitBlk : s.waitBlk = false
  inputs : s.inputs = []

theorem BackEndRun.step {P : Params} {s : State} (h : BackEndRun P s) :
    ∃ t, stepWith P s = .next t ∧
      (t.phase = .idle ∧ t.done = true ∨ BackEndRun P t ∧ stepsLeft t < stepsLeft s) := by
  obtain ⟨t, hstep⟩ := h.ok.coreStep_next h.later
  have hm := coreStep_cases P s t hstep
  refine ⟨t, (stepWith_silent P s h.inputs).trans hstep, ?_⟩
  obtain hlater | hended := hm.later_or_ended h.later
  · exact .inr ⟨⟨hm.backEndOk h.ok h.later, hlater, hm.keeps_not_waiting h.later h.waitBlk,
      hm.inputs_eq.trans h.inputs⟩, (hm.stepsLeft_lt h.ok h.later h.waitBlk).resolve_left hlater.not_idle⟩
  · exact .inl hended

/-- The outcome comes with the last of the steps that are left, or earlier. -/
theorem BackEndRun.ends {P : Params} (n : Nat) {s : State} (h : BackEndRun P s) (hn : stepsLeft s ≤ n) :
    ∃ m t, m ≤ n + 1 ∧ runWith P m s = .next t ∧ t.phase = .idle ∧ t.done = true := by
  induction n generalizing s with
  | zero =>
    obtain ⟨t, hstep, hended | ⟨-, hlt⟩⟩ := h.step
    · exact ⟨1, t, le_rfl, runWith_succ_of_next 0 hstep, hended⟩
    · omega
  | succ n ih =>
    obtain ⟨t, hstep, hended | ⟨ht, hlt⟩⟩ := h.step
    · exact ⟨1, t, by omega, runWith_succ_of_next 0 hstep, hended⟩
    · obtain ⟨m, u, hm, hrun, hu⟩ := ih ht (by omega)
      exact ⟨m + 1, u, by omega, (runWith_succ_of_next m hstep).trans hrun, hu⟩

/-- Settles O48: at the hand-off the back end's relations hold of nothing yet, and `stepsLeft` counts 4 `WAVE_LEN` + 7. -/
theorem handedOffInvocationsEnd : Obligations.HandedOffInvocationsEnd := by
  intro P s ⟨hp, he, hw, hi⟩
  have hrun : BackEndRun P s :=
    ⟨.at_detect P hp fun hent => absurd (he.symm.trans hent) (by decide), .inl hp, hw, hi⟩
  exact hrun.ends (4 * s.waveLen + 7) (stepsLeft_detect_entry hp he).le

end Sys2Proof.Machine
end

section
/-! PROOFS. The value registers and sample buffers stay in their widths (R27, R40 to R48, R72 to R74): the bounds of what
each rule computes, and that every step keeps `RangesOk`. -/

namespace Sys2Proof.Machine

/-! ### What the rules compute -/

/-- A property of every element that a buffer reads holds on, if what is written has it. -/
theorem Buffer.read_writeList_forall {α : Type} [Inhabited α] [DecidableEq α] (p : α → Prop) {b : Buffer α} {base : Nat}
    {vs : List α} (hb : ∀ k, p (Buffer.read b k)) (hv : ∀ v ∈ vs, p v) :
    ∀ k, p (Buffer.read (Buffer.writeList b base vs) k) := by
  intro k
  by_cases hin : base ≤ k ∧ k < base + vs.length
  · obtain ⟨i, rfl⟩ := Nat.exists_eq_add_of_le hin.1
    rw [read_writeList_inside b base vs i (by omega)]
    exact hv _ (List.getElem_mem _)
  · rw [read_writeList_outside b base vs k (by omega)]
    exact hb k

theorem Buffer.forall_mem_slice {α : Type} [Inhabited α] (p : α → Prop) {b : Buffer α} (hb : ∀ k, p (Buffer.read b k))
    (base n : Nat) : ∀ v ∈ Buffer.slice b base n, p v := by
  intro v hv
  obtain ⟨k, -, rfl⟩ := List.mem_map.mp hv
  exact hb _

/-- R42: the mean of 16-bit samples is a 16-bit value. -/
theorem nextBias_range (P : Params) (s : State) (hn : 0 < P.blockN) : -32768 ≤ nextBias P s ∧ nextBias P s ≤ 32767 := by
  have hlen := rawBlock_length P s
  have hne : rawBlock P s ≠ [] := List.ne_nil_of_length_pos (hlen ▸ hn)
  rw [nextBias, ← hlen]
  exact floorMean_bounds _ _ _ hne (rawBlock_range P s)

/-- R72, R73: the difference of two 16-bit values. -/
theorem corrected_range (P : Params) (s : State) (hb : -32768 ≤ s.bias ∧ s.bias ≤ 32767) :
    ∀ x ∈ corrected P s, -65535 ≤ x ∧ x ≤ 65535 := by
  intro x hx
  obtain ⟨y, hy, rfl⟩ := List.mem_map.mp hx
  have := rawBlock_range P s y hy
  constructor <;> omega

theorem RangesOk.rawEvent {P : Params} {s : State} (h : RangesOk P s) :
    ∀ x ∈ rawEvent P s, -65535 ≤ x ∧ x ≤ 65535 := by
  intro x hx
  obtain (hx | hx) | hx := (List.mem_append.mp hx).imp_left List.mem_append.mp
  · exact Buffer.forall_mem_slice (fun x => -65535 ≤ x ∧ x ≤ 65535) h.idle_range _ _ x hx
  · exact Buffer.forall_mem_slice (fun x => -65535 ≤ x ∧ x ≤ 65535) h.act_range _ _ x hx
  · exact corrected_range P s h.bias_range x hx

/-- R102: a corrected sample less the mean of such samples. -/
theorem RangesOk.eventWave {P : Params} {s : State} (h : RangesOk P s) :
    ∀ x ∈ eventWave P s, -131070 ≤ x ∧ x ≤ 131070 := by
  have hrange : ∀ x ∈ trimmedEvent P s, -65535 ≤ x ∧ x ≤ 65535 :=
    fun x hx => h.rawEvent x ((trimmedEvent_sublist P s).subset hx)
  intro x hx
  obtain ⟨y, hy, rfl⟩ := List.mem_map.mp hx
  have hmean : -65535 ≤ floorMean (trimmedEvent P s) ∧ floorMean (trimmedEvent P s) ≤ 65535 :=
    floorMean_bounds _ _ _ (List.ne_nil_of_mem hy) hrange
  have := hrange y hy
  constructor <;> omega

/-- R47, R181. -/
theorem RangesOk.initThr_le {P : Params} {s : State} (h : RangesOk P s) : initThr P s ≤ thrBound P := by
  have hptp := ptp_le (Buffer.slice s.wave 0 (min P.initWindow s.waveLen)) (-131070) 131070 (by omega)
    (Buffer.forall_mem_slice (fun x => -131070 ≤ x ∧ x ≤ 131070) h.wave_range _ _)
  exact (Nat.mul_le_mul_left _ (by omega)).trans (le_max_left _ _)

/-- R47, R184. -/
theorem RangesOk.nextThr_le {P : Params} {s : State} (h : RangesOk P s) : nextThr P s ≤ thrBound P :=
  (Nat.mul_le_mul_left _ h.peak_range).trans (le_max_right _ _)

theorem RangesOk.signedSample_le {P : Params} {s : State} (h : RangesOk P s) : (signedSample s).toNat ≤ 131070 := by
  have := h.wave_range s.detJ
  cases hs : s.sign <;> simp only [signedSample, hs, if_true, if_false, Bool.false_eq_true] <;> omega

/-! ### Every step keeps them -/

/-- The value registers and sample buffers of `s`. -/
structure KeepsValues (s t : State) : Prop where
  pwin : t.pwin = s.pwin
  primeCnt : t.primeCnt = s.primeCnt
  bias : t.bias = s.bias
  actCnt : t.actCnt = s.actCnt
  idleBuf : t.idleBuf = s.idleBuf
  actBuf : t.actBuf = s.actBuf
  wave : t.wave = s.wave
  thr : t.thr = s.thr
  peak : t.peak = s.peak

theorem RangesOk.of_keeps {P : Params} {s t : State} (h : RangesOk P s) (hk : KeepsValues s t) : RangesOk P t where
  pwin_range := hk.pwin ▸ h.pwin_range
  prime_range := hk.primeCnt ▸ h.prime_range
  bias_range := hk.bias ▸ h.bias_range
  active_range := hk.actCnt ▸ h.active_range
  idle_range := hk.idleBuf ▸ h.idle_range
  act_range := hk.actBuf ▸ h.act_range
  wave_range := hk.wave ▸ h.wave_range
  thr_range := hk.thr ▸ h.thr_range
  peak_range := hk.peak ▸ h.peak_range

theorem keepsValues_detectAdvance (u : State) : KeepsValues u (detectAdvance u) := by
  obtain ⟨-, h⟩ | ⟨-, h⟩ := detectAdvance_cases u <;> rw [h] <;> exact ⟨rfl, rfl, rfl, rfl, rfl, rfl, rfl, rfl, rfl⟩

theorem keepsValues_enterDecode (w : Symbol) (s : State) : KeepsValues s (s.enterDecode w) := by
  obtain ⟨-, h⟩ | ⟨-, -, h⟩ | ⟨-, -, h⟩ := s.enterDecode_cases w <;> rw [h] <;>
    exact ⟨rfl, rfl, rfl, rfl, rfl, rfl, rfl, rfl, rfl⟩

theorem keepsValues_takeSymbol (w : Symbol) (s : State) : KeepsValues s (s.takeSymbol w) := by
  obtain ⟨-, h⟩ | ⟨-, -, h⟩ | ⟨-, -, -, h⟩ | ⟨-, -, -, h⟩ := s.takeSymbol_cases w <;> rw [h] <;>
    exact ⟨rfl, rfl, rfl, rfl, rfl, rfl, rfl, rfl, rfl⟩

theorem RangesOk.runSample {P : Params} {s : State} (h : RangesOk P s) : RangesOk P (runSample s) := by
  obtain hr | ⟨-, hr⟩ := runSample_cases s <;> rw [hr]
  · exact h
  · exact { h with peak_range := h.signedSample_le }

theorem RangesOk.endRun {P : Params} {s : State} (h : RangesOk P s) : RangesOk P (endRun P s) := by
  obtain ⟨-, hr⟩ | ⟨-, hr⟩ := endRun_cases P s <;> rw [hr]
  · exact { h with thr_range := h.nextThr_le, peak_range := Nat.zero_le _ }
  · exact { h with thr_range := h.nextThr_le, peak_range := Nat.zero_le _ }

/-- R154, R158, R162: the block's power enters the window, its corrected samples become the preceding idle block. -/
theorem RangesOk.idleBlock {P : Params} {s t : State} (h : RangesOk P s) (hn : 0 < P.blockN)
    (hwin : ∀ p ∈ t.pwin, p ∈ s.pwin ∨ p = blockPower P s) (hprime : t.primeCnt ≤ P.powWin)
    (hbias : t.bias = nextBias P s) (hact : t.actCnt ≤ s.actCnt)
    (hidle : t.idleBuf = Buffer.writeList s.idleBuf 0 (corrected P s)) (hbuf : t.actBuf = s.actBuf)
    (hwave : t.wave = s.wave) (hthr : t.thr = s.thr) (hpeak : t.peak = s.peak) : RangesOk P t where
  pwin_range := fun p hp => by
    obtain hold | rfl := hwin p hp
    · exact h.pwin_range p hold
    · exact blockPower_le P s
  prime_range := hprime
  bias_range := hbias ▸ nextBias_range P s hn
  active_range := fun m hm => hact.trans (h.active_range m hm)
  idle_range := hidle ▸ Buffer.read_writeList_forall _ h.idle_range (corrected_range P s h.bias_range)
  act_range := hbuf ▸ h.act_range
  wave_range := hwave ▸ h.wave_range
  thr_range := hthr ▸ h.thr_range
  peak_range := hpeak ▸ h.peak_range

theorem mem_push {win : List Nat} {v p : Nat} (hp : p ∈ push win v) : p ∈ win ∨ p = v :=
  (List.mem_append.mp hp).imp List.mem_of_mem_tail List.mem_singleton.mp

theorem CoreMove.rangesOk {P : Params} {s t : State} (hn : 0 < P.blockN) (h : RangesOk P s) (hm : CoreMove P s t) :
    RangesOk P t := by
  cases hm with
  | primes _ _ _ hlt =>
    exact h.idleBlock hn (fun p hp => List.mem_or_eq_of_mem_set hp) hlt rfl le_rfl rfl rfl rfl rfl rfl
  | idleBlock => exact h.idleBlock hn (fun p hp => mem_push hp) h.prime_range rfl le_rfl rfl rfl rfl rfl rfl
  | noiseBlock => exact h.idleBlock hn (fun p hp => mem_push hp) h.prime_range rfl (Nat.zero_le _) rfl rfl rfl rfl rfl
  | activeBlock _ _ _ _ hroom =>
    exact { h with
      bias_range := nextBias_range P s hn
      active_range := fun m hm => Nat.lt_of_le_of_ne (h.active_range m hm) fun heq => hroom (heq ▸ hm)
      act_range := Buffer.read_writeList_forall _ h.act_range (corrected_range P s h.bias_range) }
  | overflows => exact { h with bias_range := nextBias_range P s hn }
  | eventBlock =>
    exact { h with
      bias_range := nextBias_range P s hn
      wave_range := Buffer.read_writeList_forall _ h.wave_range h.eventWave }
  | detectBegins => exact { h with thr_range := h.initThr_le, peak_range := Nat.zero_le _ }
  | runSampled => exact h.runSample.of_keeps (keepsValues_detectAdvance _)
  | runEnds => exact h.endRun.of_keeps (keepsValues_detectAdvance _)
  | sampleSkipped => exact h.of_keeps (keepsValues_detectAdvance s)
  | decodeBegins => exact h.of_keeps (keepsValues_enterDecode _ s)
  | symbolTaken => exact h.of_keeps (keepsValues_takeSymbol _ s)
  | waits | idles | cancelled | requests | noWaveform | tooFewIntervals | recoverBegins | recoverEnds | longInterval
  | shortInterval | noBits | frameBegins | shortRead | symbolAccepted | badParity | noSymbols | exhausted =>
    exact h.of_keeps ⟨rfl, rfl, rfl, rfl, rfl, rfl, rfl, rfl, rfl⟩

theorem RangesOk.command {P : Params} {s t : State} (c : Command) (h : RangesOk P s)
    (hc : exec (decodeCommand c) s = .next t) : RangesOk P t := by
  obtain ⟨-, -, rfl⟩ | ⟨-, -, rfl⟩ | rfl := exec_command_cases c s t hc
  · exact { h with
      prime_range := Nat.zero_le _, bias_range := by simp, active_range := fun _ _ => Nat.zero_le _ }
  · exact h.of_keeps ⟨rfl, rfl, rfl, rfl, rfl, rfl, rfl, rfl, rfl⟩
  · exact h

theorem RangesOk.port {P : Params} {s t : State} (m : PortMove) (h : RangesOk P s) (hm : portStep P m s = .next t) :
    RangesOk P t := by
  obtain ⟨bytes, -, -, -, rfl⟩ | ⟨-, rfl⟩ | ⟨-, v, n, rfl⟩ := portStep_cases P m s t hm
  · exact h.of_keeps ⟨rfl, rfl, rfl, rfl, rfl, rfl, rfl, rfl, rfl⟩
  · exact (rangesOk_resetFor P).of_keeps ⟨rfl, rfl, rfl, rfl, rfl, rfl, rfl, rfl, rfl⟩
  · exact h.of_keeps ⟨rfl, rfl, rfl, rfl, rfl, rfl, rfl, rfl, rfl⟩

theorem stepWith_rangesOk {P : Params} {s t : State} (hwf : P.wellFormed = true) (h : RangesOk P s)
    (hstep : stepWith P s = .next t) : RangesOk P t := by
  have h (rest : List Move) : RangesOk P { s with inputs := rest } :=
    h.of_keeps ⟨rfl, rfl, rfl, rfl, rfl, rfl, rfl, rfl, rfl⟩
  obtain ⟨rest, -, hcore⟩ | ⟨c, rest, -, hcmd⟩ | ⟨m, rest, -, hport⟩ := stepWith_cases P s t hstep
  · exact hcore.rangesOk ((Params.wellFormed_iff P).mp hwf).1 (h rest)
  · exact (h rest).command c hcmd
  · exact (h rest).port m hport

end Sys2Proof.Machine
end

section
/-! PROOFS. The registers of `IW` bits hold 0 to `L_MAX` (R24, R37, R45, R49 to R53, R55, R57, R79), and with them the
buffers fit their capacities. -/

namespace Sys2Proof.Machine

/-! ### Every step keeps the index registers within `L_MAX` -/

theorem captureMax_eq_some_iff (P : Params) (n : Nat) :
    captureMax P = some n ↔ ∃ m, P.maxActive = some m ∧ (m + 2) * P.blockN = n := by
  simp [captureMax]

/-- R24: a run in range is at most `L_MAX` samples with its two neighbours. -/
theorem RangesOk.run_le {P : Params} {s : State} (h : RangesOk P s) {n : Nat} (hn : captureMax P = some n) :
    (s.actCnt + 2) * P.blockN ≤ n := by
  obtain ⟨m, hm, rfl⟩ := (captureMax_eq_some_iff P n).mp hn
  exact Nat.mul_le_mul_right _ (Nat.add_le_add_right (h.active_range m hm) 2)

theorem IndexesWithin.raise {n : Nat} {s : State} (h : IndexesWithin n s) (c : ResultCode) :
    IndexesWithin n (s.raise c) := by
  refine { h with result_len := ?_ }
  rw [State.raise_resultLen]
  split
  · exact h.out_len
  · exact Nat.zero_le n

/-- The direction and the accumulator are no indexes. -/
theorem IndexesWithin.setWord {n : Nat} {s : State} (h : IndexesWithin n s) (d : Bool) (a : Symbol) :
    IndexesWithin n { s with dir := d, acc := a } :=
  { h with }

theorem IndexesWithin.runSample {n : Nat} {s : State} (h : IndexesWithin n s) : IndexesWithin n (runSample s) := by
  obtain hr | ⟨-, hr⟩ := runSample_cases s <;> rw [hr]
  · exact h
  · exact { h with peak_idx := h.det_j }

/-- R184: the recorded intervals are counted by `DetectLinks.endRun`, and none is longer than its end index. -/
theorem IndexesWithin.endRun {n : Nat} {s : State} (P : Params) (h : IndexesWithin n s)
    (hl : DetectLinks (endRun P s) (s.detJ + 1)) (hn : s.detJ < s.waveLen) : IndexesWithin n (endRun P s) := by
  have hcnt : (Machine.endRun P s).ivlCnt ≤ n := by
    have hlast := hl.last_recorded rfl
    have := h.wave_len
    omega
  obtain ⟨-, hr⟩ | ⟨-, hr⟩ := endRun_cases P s <;> rw [hr] at hcnt ⊢
  · exact { h with prev_idx := h.peak_idx }
  · exact { h with
      prev_idx := h.peak_idx
      ivl_cnt := hcnt
      intervals := Buffer.read_writeList_forall (· ≤ n) h.intervals fun v hv => by
        rw [List.mem_singleton.mp hv]
        exact (Nat.sub_le _ _).trans h.peak_idx }

theorem IndexesWithin.detectAdvance {n : Nat} {u : State} (h : IndexesWithin n u) (hn : u.detJ < u.waveLen) :
    IndexesWithin n (detectAdvance u) := by
  have hj : u.detJ + 1 ≤ n := Nat.le_trans hn h.wave_len
  obtain ⟨-, hr⟩ | ⟨-, hr⟩ := detectAdvance_cases u <;> rw [hr]
  · exact { h with det_j := hj }
  · exact { h with det_j := hj }

/-- A classification: the bit fits because there are no more bits than consumed intervals. -/
theorem IndexesWithin.classified {n : Nat} {s t : State} (h : IndexesWithin n s) {v : Nat} (hv : v ≤ 2 * n)
    (hb : s.bitCnt + 1 ≤ n) (hr : t.recI ≤ n)
    (ht : t = { s with cwin := push s.cwin v, recI := t.recI, bits := t.bits, bitCnt := s.bitCnt + 1 }) :
    IndexesWithin n t := by
  rw [ht]
  exact { h with clock := clock_push h.clock hv, rec_i := hr, bit_cnt := hb }

theorem CoreMove.indexesWithin {P : Params} {s t : State} {n : Nat} (hn : captureMax P = some n) (hr : RangesOk P s)
    (hs : StageOk P s) (h : IndexesWithin n s) (hm : CoreMove P s t) : IndexesWithin n t := by
  cases hm with
  | waits | idles => exact h
  | cancelled | noBits | noSymbols | exhausted => exact h.raise _
  | overflows => exact IndexesWithin.raise (s := s.consumeBlock P) { h with } _
  | requests | primes | activeBlock | idleBlock | noiseBlock => exact { h with }
  | eventBlock =>
    exact { h with wave_len := (eventWave_length P s).trans_le ((trimmedEvent_length_le P s).trans (hr.run_le hn)) }
  | noWaveform => exact { h with ivl_cnt := Nat.zero_le n }
  | detectBegins => exact { h with ivl_cnt := Nat.zero_le n, det_j := Nat.zero_le n }
  | runSampled _ _ _ hlt => exact h.runSample.detectAdvance (by simpa)
  | runEnds _ hp he hlt _ hk =>
    obtain ⟨hd, hi⟩ := hs.detecting hp he
    exact (h.endRun P ((hd.links hi).endRun P hk hlt) hlt).detectAdvance (by simpa)
  | sampleSkipped _ _ _ hlt => exact h.detectAdvance hlt
  | tooFewIntervals => exact { h with bit_cnt := Nat.zero_le n }
  | recoverBegins =>
    have hseed : ∀ x ∈ Buffer.slice s.ivl P.discard P.clkWin, x ≤ 2 * n :=
      fun x hx => (Buffer.forall_mem_slice (· ≤ n) h.intervals _ _ x hx).trans (by omega)
    exact { h with clock := hseed, rec_i := Nat.zero_le n, bit_cnt := Nat.zero_le n }
  | recoverEnds => exact { h with }
  | longInterval _ hp he hlen =>
    obtain ⟨-, hbits, -⟩ := hs.recovering hp he
    have hcnt := h.ivl_cnt
    have hx : nextInterval P s ≤ n := h.intervals _
    exact h.classified (v := nextInterval P s) (by omega) (by omega) (show s.recI + 1 ≤ n by omega) rfl
  | shortInterval _ hp he hlen =>
    obtain ⟨-, hbits, -⟩ := hs.recovering hp he
    have hcnt := h.ivl_cnt
    have hx : nextInterval P s ≤ n := h.intervals _
    exact h.classified (v := 2 * nextInterval P s) (by omega) (by omega) (show s.recI + 2 ≤ n by omega) rfl
  | frameBegins => exact { h with sym_cnt := Nat.zero_le n, fr_k := (frameEntry_spec s).1.trans h.bit_cnt }
  | shortRead | badParity => exact { h with }
  | symbolAccepted _ hp he hlen =>
    obtain ⟨hsyms, -⟩ := hs.framing hp he
    have hcnt := h.bit_cnt
    exact { h with sym_cnt := show s.symCnt + 1 ≤ n by omega, fr_k := hlen.trans hcnt }
  | decodeBegins _ _ _ hpos =>
    have hone : 1 ≤ n := Nat.le_trans hpos h.sym_cnt
    obtain ⟨-, ht⟩ | ⟨-, -, ht⟩ | ⟨-, -, ht⟩ := s.enterDecode_cases (Buffer.read s.syms 0) <;> rw [ht]
    · exact { h with dec_j := hone, out_len := Nat.zero_le n }
    · exact { h with dec_j := hone, out_len := Nat.zero_le n }
    · exact (h.setWord true s.acc).raise _
  | symbolTaken _ hp he hlt =>
    obtain ⟨hout, -⟩ := hs.decoding hp he
    have hcnt := h.sym_cnt
    obtain ⟨-, ht⟩ | ⟨-, -, ht⟩ | ⟨-, -, -, ht⟩ | ⟨-, -, -, ht⟩ := s.takeSymbol_cases (decodedSym s s.decJ) <;> rw [ht]
    · exact { h with dec_j := Nat.le_trans hlt hcnt, out_len := show s.outLen + 1 ≤ n by omega }
    all_goals exact (h.setWord s.dir _).raise _

theorem IndexesWithin.command {n : Nat} {s t : State} (c : Command) (h : IndexesWithin n s)
    (hc : exec (decodeCommand c) s = .next t) : IndexesWithin n t := by
  obtain ⟨-, -, rfl⟩ | ⟨-, -, rfl⟩ | rfl := exec_command_cases c s t hc
  · exact { h with
      result_len := Nat.zero_le n, wave_len := Nat.zero_le n, ivl_cnt := Nat.zero_le n, bit_cnt := Nat.zero_le n
      sym_cnt := Nat.zero_le n, out_len := Nat.zero_le n }
  · exact { h with }
  · exact h

theorem IndexesWithin.port {P : Params} {n : Nat} {s t : State} (hn : captureMax P = some n) (m : PortMove)
    (h : IndexesWithin n s) (hm : portStep P m s = .next t) : IndexesWithin n t := by
  obtain ⟨bytes, -, -, -, rfl⟩ | ⟨-, rfl⟩ | ⟨-, v, k, rfl⟩ := portStep_cases P m s t hm
  · exact { h with }
  · exact { widthsOk_resetFor P n hn with }
  · exact { h with }

theorem stepWith_widthsOk {P : Params} {s t : State} (hr : RangesOk P s) (hs : StageOk P s) (h : WidthsOk P s)
    (hstep : stepWith P s = .next t) : WidthsOk P t := by
  intro n hn
  have hi (rest : List Move) : IndexesWithin n { s with inputs := rest } := { h n hn with }
  obtain ⟨rest, -, hcore⟩ | ⟨c, rest, -, hcmd⟩ | ⟨m, rest, -, hport⟩ := stepWith_cases P s t hstep
  · exact hcore.indexesWithin (s := { s with inputs := rest }) hn (hr.of_keeps ⟨rfl, rfl, rfl, rfl, rfl, rfl, rfl, rfl, rfl⟩)
      (hs.setOutside rest s.hostSaw s.freeCnt s.blk s.cancelReq s.waitBlk s.blkHere) (hi rest)
  · exact (hi rest).command c hcmd
  · exact (hi rest).port hn m hport

/-- Settles O56: the value registers by `stepWith_rangesOk`, the registers of `IW` bits by `stepWith_widthsOk`. -/
theorem stepsKeepRanges : Obligations.StepsKeepRanges :=
  ⟨fun _ _ _ hwf h hstep => stepWith_rangesOk hwf h hstep, fun _ _ _ _ hr hs h hstep => stepWith_widthsOk hr hs h hstep⟩

/-! ### Capacities (R24, R88) -/

/-- `IW` is the number of bits of `L_MAX`. -/
theorem indexWidth_least (P : Params) (m : Nat) (hwf : P.wellFormed = true) (hm : P.maxActive = some m) :
    ∃ w, indexWidth P = some w ∧ (m + 2) * P.blockN < 2 ^ w ∧ 2 ^ (w - 1) ≤ (m + 2) * P.blockN := by
  have hpos : (m + 2) * P.blockN ≠ 0 :=
    (Nat.mul_pos (Nat.succ_pos _) ((Params.wellFormed_iff P).mp hwf).1).ne'
  refine ⟨_, by simp only [indexWidth, captureMax, hm, Option.map_some], Nat.lt_log2_self, ?_⟩
  rw [Nat.add_sub_cancel]
  exact Nat.log2_self_le hpos

theorem withinCapacity_of_invariants {P : Params} {m : Nat} {s : State} (hn : 0 < P.blockN) (hm : P.maxActive = some m)
    (hr : RangesOk P s) (hs : StageOk P s) : WithinCapacity P ((m + 2) * P.blockN) s := by
  have hrun : (s.actCnt + 2) * P.blockN ≤ (m + 2) * P.blockN :=
    hr.run_le ((captureMax_eq_some_iff P _).mpr ⟨m, hm, rfl⟩)
  have hwave (hp : PastSegmenter s) : s.waveLen ≤ (m + 2) * P.blockN := (hs.event_size hp).2.trans hrun
  have hpos : 0 < (m + 2) * P.blockN := Nat.mul_pos (Nat.succ_pos _) hn
  refine ⟨hrun, hwave, ?intervals, ?bits, ?symbols, ?characters⟩
  case intervals =>
    rintro (⟨hp, he⟩ | hp)
    · obtain ⟨hd, -⟩ := hs.detecting hp he
      have := hd.index_inside
      have := hwave (.inl hp)
      cases hv : s.havePrev with
      | false => rw [hd.none_recorded hv]; omega
      | true => have := hd.last_recorded hv; omega
    · obtain ⟨-, hcnt⟩ := hs.detected hp
      have := hwave (.inr hp)
      omega
  case bits =>
    rintro (⟨hp, he⟩ | hp)
    · obtain ⟨hrec, hbits, -⟩ := hs.recovering hp he
      omega
    · exact hs.recovered hp
  case symbols =>
    rintro (⟨hp, he⟩ | hp)
    · obtain ⟨hsyms, hfr, -⟩ := hs.framing hp he
      exact hsyms.trans hfr
    · exact (hs.framed hp).1
  case characters =>
    intro hp he
    obtain ⟨hout, hj, -⟩ := hs.decoding hp he
    omega

theorem withinCapacity_resetFor (P : Params) (n m : Nat) (hn : n = (m + 2) * P.blockN) :
    WithinCapacity P n (State.resetFor P) := by
  subst hn
  constructor
  case run_fits => exact Nat.mul_le_mul_right _ (by simp [State.resetFor])
  all_goals simp [State.resetFor, PastSegmenter]

/-- Settles O60: the width by `Nat.log2`; the capacities follow from the invariants of the state a step leads to, which O56
and O57 give; at reset they are clear. -/
theorem buffersStayWithinCapacity : Obligations.BuffersStayWithinCapacity :=
  ⟨indexWidth_least, fun P s t _ hwf hm hctl hr hs hstep =>
    withinCapacity_of_invariants ((Params.wellFormed_iff P).mp hwf).1 hm (stepWith_rangesOk hwf hr hstep)
      (stepsKeepStages P s t hwf hctl hs hstep), fun P m _ => withinCapacity_resetFor P _ m rfl⟩

end Sys2Proof.Machine
end

section
/-! PROOFS. Nothing carries over (R7, R59, R80): two blocks that agree on what the host sees and on what their stage still
reads make the same step, and agree after it; a START makes any two idle blocks agree. -/

namespace Sys2Proof.Machine

/-! ### Buffers that agree below a count -/

section Agreement

variable {α : Type} [Inhabited α] {b c : Buffer α} {n : Nat}

/-- Two buffers hold the same elements below `n`. -/
def Agree (n : Nat) (b c : Buffer α) : Prop :=
  ∀ k < n, Buffer.read b k = Buffer.read c k

theorem agree_zero (b c : Buffer α) : Agree 0 b c := fun _ hk => absurd hk (Nat.not_lt_zero _)

theorem Agree.slice (h : Agree n b c) (base len : Nat) (hle : base + len ≤ n) :
    Buffer.slice b base len = Buffer.slice c base len :=
  Buffer.slice_congr b c base len fun k hk => h _ (by omega)

variable [DecidableEq α]

/-- The same elements written at the same place. -/
theorem Agree.writeList (h : Agree n b c) (base : Nat) (vs : List α) :
    Agree n (Buffer.writeList b base vs) (Buffer.writeList c base vs) := by
  intro k hk
  by_cases hin : base ≤ k ∧ k < base + vs.length
  · obtain ⟨i, rfl⟩ := Nat.exists_eq_add_of_le hin.1
    rw [Buffer.read_writeList_inside b base vs i (by omega), Buffer.read_writeList_inside c base vs i (by omega)]
  · rw [Buffer.read_writeList_outside b base vs k (by omega), Buffer.read_writeList_outside c base vs k (by omega)]
    exact h k hk

/-- The same elements appended: the buffers agree on them too. -/
theorem Agree.append (h : Agree n b c) (vs : List α) :
    Agree (n + vs.length) (Buffer.writeList b n vs) (Buffer.writeList c n vs) := by
  intro k hk
  obtain hlt | hge := Nat.lt_or_ge k n
  · rw [Buffer.read_writeList_outside b n vs k (.inl hlt), Buffer.read_writeList_outside c n vs k (.inl hlt)]
    exact h k hlt
  · obtain ⟨i, rfl⟩ := Nat.exists_eq_add_of_le hge
    rw [Buffer.read_writeList_inside b n vs i (by omega), Buffer.read_writeList_inside c n vs i (by omega)]

/-- One element appended at two equal counts. -/
theorem Agree.write_next (h : Agree n b c) {m : Nat} (hm : m = n) (v : α) :
    Agree (n + 1) (Buffer.write b n v) (Buffer.write c m v) := by
  subst hm
  exact h.append [v]

/-- What is written from 0 on does not depend on what was there. -/
theorem agree_writeList_zero (b c : Buffer α) (vs : List α) :
    Agree vs.length (Buffer.writeList b 0 vs) (Buffer.writeList c 0 vs) := by
  simpa using (agree_zero b c).append vs

end Agreement

/-! ### What two runs share -/

/-- What the host and the Source see, and the tape; the power windows have their length. -/
structure Shown (P : Params) (s t : State) : Prop where
  phase : t.phase = s.phase
  done : t.done = s.done
  cancelReq : t.cancelReq = s.cancelReq
  waitBlk : t.waitBlk = s.waitBlk
  resultCode : t.resultCode = s.resultCode
  resultLen : t.resultLen = s.resultLen
  text : Agree s.resultLen s.out t.out
  inputs : t.inputs = s.inputs
  window_left : s.pwin.length = P.powWin
  window_right : t.pwin.length = P.powWin

/-- What PRIME and SCAN read of the run (R150 to R159). -/
structure RunSame (P : Params) (s t : State) : Prop where
  primeCnt : t.primeCnt = s.primeCnt
  bias : t.bias = s.bias
  actCnt : t.actCnt = s.actCnt
  blkHere : t.blkHere = s.blkHere
  block : s.blkHere = true → Agree P.blockN s.blk t.blk
  run : Agree (s.actCnt * P.blockN) s.actBuf t.actBuf

/-- What SCAN reads besides: the baseline and the preceding idle block. -/
structure ScanSame (P : Params) (s t : State) : Prop where
  run : RunSame P s t
  pwin : t.pwin = s.pwin
  idle : Agree P.blockN s.idleBuf t.idleBuf

/-- What DETECT reads of the waveform. -/
structure WaveSame (s t : State) : Prop where
  waveLen : t.waveLen = s.waveLen
  wave : Agree s.waveLen s.wave t.wave

/-- What DETECT reads once it has begun; a peak's place and a transition's only where there is one. -/
structure DetectSame (s t : State) : Prop where
  detJ : t.detJ = s.detJ
  sign : t.sign = s.sign
  thr : t.thr = s.thr
  peak : t.peak = s.peak
  havePrev : t.havePrev = s.havePrev
  peakIdx : s.peak ≠ 0 → t.peakIdx = s.peakIdx
  prevIdx : s.havePrev = true → t.prevIdx = s.prevIdx
  ivlCnt : t.ivlCnt = s.ivlCnt
  ivl : Agree s.ivlCnt s.ivl t.ivl

/-- What RECOVER reads of the intervals. -/
structure IntervalsSame (s t : State) : Prop where
  ivlCnt : t.ivlCnt = s.ivlCnt
  ivl : Agree s.ivlCnt s.ivl t.ivl

/-- What FRAME reads of the bits. -/
structure BitsSame (s t : State) : Prop where
  bitCnt : t.bitCnt = s.bitCnt
  bits : Agree s.bitCnt s.bits t.bits

/-- What RECOVER reads once it has begun. -/
structure RecoverSame (s t : State) : Prop where
  cwin : t.cwin = s.cwin
  recI : t.recI = s.recI
  bits : BitsSame s t

/-- What DECODE reads of the symbols. -/
structure SymbolsSame (s t : State) : Prop where
  symCnt : t.symCnt = s.symCnt
  syms : Agree s.symCnt s.syms t.syms

/-- What FRAME reads once it has begun. -/
structure FrameSame (s t : State) : Prop where
  frK : t.frK = s.frK
  syms : SymbolsSame s t

/-- What DECODE reads once it has begun. -/
structure DecodeSame (s t : State) : Prop where
  dir : t.dir = s.dir
  decJ : t.decJ = s.decJ
  acc : t.acc = s.acc
  outLen : t.outLen = s.outLen
  out : Agree s.outLen s.out t.out

/-- What the stage that `s` is in still reads, by phase. -/
inductive StageSame (P : Params) (s t : State) : Prop where
  | idle (hp : s.phase = .idle)
  | prime (hp : s.phase = .prime) (h : RunSame P s t) (hwin : t.pwin.take s.primeCnt = s.pwin.take s.primeCnt)
  | scan (hp : s.phase = .scan) (h : ScanSame P s t)
  | detect (hp : s.phase = .detect) (he : t.entered = s.entered) (h : WaveSame s t)
      (hin : s.entered = true → DetectSame s t)
  | recover (hp : s.phase = .recover) (he : t.entered = s.entered) (h : IntervalsSame s t)
      (hin : s.entered = true → RecoverSame s t)
  | frame (hp : s.phase = .frame) (he : t.entered = s.entered) (h : BitsSame s t)
      (hin : s.entered = true → FrameSame s t)
  | decode (hp : s.phase = .decode) (he : t.entered = s.entered) (h : SymbolsSame s t)
      (hin : s.entered = true → DecodeSame s t)

/-- Two blocks that behave alike from here on. -/
structure Same (P : Params) (s t : State) : Prop where
  shown : Shown P s t
  stage : StageSame P s t

/-- Two step outcomes whose next states are related, or that stop alike. -/
def OutcomesRelated (R : State → State → Prop) (a b : Host.Outcome State Fault Refusal) : Prop :=
  match a, b with
  | .next s, .next t => R s t
  | .fault r, .fault q => r = q
  | .refused r, .refused q => r = q
  | _, _ => False

/-! ### Outcomes, and moves from outside -/

theorem Shown.raise {P : Params} {s t : State} (h : Shown P s t) (c : ResultCode)
    (hout : c = .ok → t.outLen = s.outLen ∧ Agree s.outLen s.out t.out) : Shown P (s.raise c) (t.raise c) := by
  by_cases hc : c = .ok
  · obtain ⟨hlen, htext⟩ := hout hc
    exact { h with
      phase := rfl, done := rfl, cancelReq := rfl, waitBlk := rfl, resultCode := rfl
      resultLen := by simp [hlen], text := by simpa [hc] using htext }
  · exact { h with
      phase := rfl, done := rfl, cancelReq := rfl, waitBlk := rfl, resultCode := rfl
      resultLen := by simp [hc], text := by simpa [hc] using agree_zero _ _ }

/-- Both end with the same outcome; only OK shows characters. -/
theorem Shown.same_raise {P : Params} {s t : State} (h : Shown P s t) (c : ResultCode)
    (hout : c = .ok → t.outLen = s.outLen ∧ Agree s.outLen s.out t.out) : Same P (s.raise c) (t.raise c) :=
  ⟨h.raise c hout, .idle rfl⟩

/-- The latch, the request, the tape and the host's view are read by no stage. -/
theorem StageSame.setOutside {P : Params} {s t : State} (h : StageSame P s t) (i j : List Move) (v u : HostView)
    (m n : Nat) (c d w x : Bool) : StageSame P
      { s with inputs := i, hostSaw := v, freeCnt := m, cancelReq := c, waitBlk := w }
      { t with inputs := j, hostSaw := u, freeCnt := n, cancelReq := d, waitBlk := x } := by
  cases h with
  | idle hp => exact .idle hp
  | prime hp h hwin => exact .prime hp { h with } hwin
  | scan hp h => exact .scan hp ⟨{ h.run with }, h.pwin, h.idle⟩
  | detect hp he h hin => exact .detect hp he { h with } fun hent => { hin hent with }
  | recover hp he h hin =>
    exact .recover hp he { h with } fun hent => ⟨(hin hent).cwin, (hin hent).recI, { (hin hent).bits with }⟩
  | frame hp he h hin => exact .frame hp he { h with } fun hent => ⟨(hin hent).frK, { (hin hent).syms with }⟩
  | decode hp he h hin => exact .decode hp he { h with } fun hent => { hin hent with }

theorem Same.setInputs {P : Params} {s t : State} (h : Same P s t) (rest : List Move) :
    Same P { s with inputs := rest } { t with inputs := rest } :=
  ⟨{ h.shown with inputs := rfl }, h.stage.setOutside rest rest _ _ _ _ _ _ _ _⟩

theorem Same.setHost {P : Params} {s t : State} (h : Same P s t) (v u : HostView) (m n : Nat) :
    Same P { s with hostSaw := v, freeCnt := m } { t with hostSaw := u, freeCnt := n } :=
  ⟨{ h.shown with }, h.stage.setOutside _ _ v u m n _ _ _ _⟩

/-- The block that both are given is the same one (R75). -/
theorem Same.takeBlock {P : Params} {s t : State} (h : Same P s t) (samples : List RawSample)
    (hlen : samples.length = P.blockN) : Same P (s.takeBlock samples) (t.takeBlock samples) := by
  have hblk : Agree P.blockN (Buffer.writeList s.blk 0 samples) (Buffer.writeList t.blk 0 samples) :=
    hlen ▸ agree_writeList_zero s.blk t.blk samples
  refine ⟨{ h.shown with waitBlk := rfl }, ?_⟩
  cases h.stage with
  | idle hp => exact .idle hp
  | prime hp h hwin => exact .prime hp { h with blkHere := rfl, block := fun _ => hblk } hwin
  | scan hp h => exact .scan hp ⟨{ h.run with blkHere := rfl, block := fun _ => hblk }, h.pwin, h.idle⟩
  | detect hp he h hin => exact .detect hp he { h with } fun hent => { hin hent with }
  | recover hp he h hin =>
    exact .recover hp he { h with } fun hent => ⟨(hin hent).cwin, (hin hent).recI, { (hin hent).bits with }⟩
  | frame hp he h hin => exact .frame hp he { h with } fun hent => ⟨(hin hent).frK, { (hin hent).syms with }⟩
  | decode hp he h hin => exact .decode hp he { h with } fun hent => { hin hent with }

/-- R131: START zeroes the counts, and below a count of 0 all buffers agree. -/
theorem same_startInvocation {P : Params} {s t : State} (hin : t.inputs = s.inputs) (hs : s.pwin.length = P.powWin)
    (ht : t.pwin.length = P.powWin) : Same P s.startInvocation t.startInvocation :=
  ⟨⟨rfl, rfl, rfl, rfl, rfl, rfl, agree_zero _ _, hin, hs, ht⟩,
    .prime rfl ⟨rfl, rfl, rfl, rfl, nofun, by simpa using agree_zero _ _⟩ rfl⟩

theorem same_resetStep {P : Params} {s t : State} (hin : t.inputs = s.inputs) :
    Same P (resetStep P s) (resetStep P t) :=
  ⟨⟨rfl, rfl, rfl, rfl, rfl, rfl, agree_zero _ _, hin, List.length_replicate, List.length_replicate⟩, .idle rfl⟩

theorem Same.command {P : Params} {s t : State} (h : Same P s t) (c : Command) :
    OutcomesRelated (Same P) (exec (decodeCommand c) s) (exec (decodeCommand c) t) := by
  have hc : decodeCommand c = .nop ∨ decodeCommand c = .start ∨ decodeCommand c = .cancel ∨
      decodeCommand c = .reservedCmd := by
    revert c
    decide
  have hp := h.shown.phase
  obtain hc | hc | hc | hc := hc <;> rw [hc]
  · exact h
  · by_cases hidle : s.phase = .idle
    · rw [exec_start_idle s hidle, exec_start_idle t (hp.trans hidle)]
      exact same_startInvocation h.shown.inputs h.shown.window_left h.shown.window_right
    · rw [exec_start_busy s hidle, exec_start_busy t (hp ▸ hidle)]
      exact h
  · by_cases hseg : s.phase = .prime ∨ s.phase = .scan
    · rw [exec_cancel_segmenter s hseg, exec_cancel_segmenter t (hp ▸ hseg)]
      exact ⟨{ h.shown with cancelReq := rfl }, h.stage.setOutside _ _ _ _ _ _ true true _ _⟩
    · obtain ⟨hprime, hscan⟩ := not_or.mp hseg
      rw [exec_cancel_elsewhere s hprime hscan, exec_cancel_elsewhere t (hp ▸ hprime) (hp ▸ hscan)]
      exact h
  · exact h

theorem Same.port {P : Params} {s t : State} (h : Same P s t) (m : PortMove) :
    OutcomesRelated (Same P) (portStep P m s) (portStep P m t) := by
  cases m with
  | deliver bytes =>
    cases hw : s.waitBlk with
    | false =>
      rw [portStep, portStep, deliverStep_unrequested P bytes s hw,
        deliverStep_unrequested P bytes t (h.shown.waitBlk.trans hw)]
      rfl
    | true =>
      have hw' := h.shown.waitBlk.trans hw
      by_cases hl : bytes.length = 2 * P.blockN
      · rw [portStep, portStep, deliverStep_granted P bytes s hw hl, deliverStep_granted P bytes t hw' hl]
        exact h.takeBlock _ (samplesOfBytes_length P.blockN bytes hl)
      · rw [portStep, portStep, deliverStep_wrongLength P bytes s hw hl, deliverStep_wrongLength P bytes t hw' hl]
        rfl
  | reset => exact same_resetStep h.shown.inputs
  | readStatus =>
    have hguard : (t.done && t.resultCode == .reserved) = (s.done && s.resultCode == .reserved) := by
      rw [h.shown.done, h.shown.resultCode]
    simp only [portStep, readStatusStep, hguard]
    split
    · rfl
    · exact h.setHost _ _ _ _
  | readLen => exact h.setHost _ _ _ _
  | readOut k =>
    simp only [portStep, readOutMove]
    split
    · exact h.setHost _ _ _ _
    · rfl

end Sys2Proof.Machine
end

section
/-! PROOFS. Two blocks that agree on what is shown and on what their stage still reads make the same core step, stage by
stage (R138). -/

namespace Sys2Proof.Machine

/-! ### The segmenter (R150 to R162) -/

section Segmenter

variable {P : Params} {s t : State}

/-- R151, R152: the latch is shared, and the request changes only `WAIT_BLK`. -/
theorem Same.beginBlockStep (h : Same P s t) : Same P (beginBlockStep s) (beginBlockStep t) := by
  cases hc : s.cancelReq with
  | true =>
    rw [beginBlockStep_latched s hc, beginBlockStep_latched t (h.shown.cancelReq.trans hc)]
    exact h.shown.same_raise .cancelled nofun
  | false =>
    rw [beginBlockStep_unlatched s hc, beginBlockStep_unlatched t (h.shown.cancelReq.trans hc)]
    exact ⟨{ h.shown with waitBlk := rfl }, h.stage.setOutside _ _ _ _ _ _ _ _ true true⟩

theorem RunSame.rawBlock_eq (h : RunSame P s t) (hb : s.blkHere = true) : rawBlock P t = rawBlock P s :=
  congrArg (List.map BitVec.toInt) ((h.block hb).slice 0 P.blockN (by omega)).symm

theorem RunSame.corrected_eq (h : RunSame P s t) (hb : s.blkHere = true) : corrected P t = corrected P s := by
  rw [corrected, corrected, h.rawBlock_eq hb, h.bias]

theorem RunSame.blockPower_eq (h : RunSame P s t) (hb : s.blkHere = true) : blockPower P t = blockPower P s :=
  congrArg ptp (h.rawBlock_eq hb)

theorem RunSame.nextBias_eq (h : RunSame P s t) (hb : s.blkHere = true) : nextBias P t = nextBias P s := by
  rw [nextBias, nextBias, h.rawBlock_eq hb]

/-- The same block, corrected by the same bias, becomes the preceding idle block. -/
theorem RunSame.idleBuf_agree (h : RunSame P s t) (hb : s.blkHere = true) : Agree P.blockN
    (Buffer.writeList s.idleBuf 0 (corrected P s)) (Buffer.writeList t.idleBuf 0 (corrected P t)) := by
  have hcorr := agree_writeList_zero s.idleBuf t.idleBuf (corrected P s)
  rw [corrected_length] at hcorr
  rwa [h.corrected_eq hb]

theorem take_succ_set (l : List Nat) (i v : Nat) (hi : i < l.length) : (l.set i v).take (i + 1) = l.take i ++ [v] := by
  rw [List.take_succ_eq_append_getElem (by simpa using hi), List.take_set_of_le (Nat.le_refl i),
    List.getElem_set_self]

/-- R154: the block's power joins what both windows share. -/
theorem RunSame.window_take (h : RunSame P s t) (hsh : Shown P s t) (hb : s.blkHere = true) (hn : s.primeCnt < P.powWin)
    (hwin : t.pwin.take s.primeCnt = s.pwin.take s.primeCnt) :
    (t.pwin.set t.primeCnt (blockPower P t)).take (s.primeCnt + 1) =
      (s.pwin.set s.primeCnt (blockPower P s)).take (s.primeCnt + 1) := by
  rw [h.primeCnt, h.blockPower_eq hb, take_succ_set s.pwin _ _ (by rwa [hsh.window_left]),
    take_succ_set t.pwin _ _ (by rwa [hsh.window_right]), hwin]

/-- R154: at the last priming block the two windows are the same. -/
theorem same_primeStep (hsh : Shown P s t) (h : RunSame P s t)
    (hwin : t.pwin.take s.primeCnt = s.pwin.take s.primeCnt) (hb : s.blkHere = true) :
    OutcomesRelated (Same P) (primeStep P s) (primeStep P t) := by
  by_cases hn : s.primeCnt < P.powWin
  case neg =>
    rw [primeStep, primeStep, if_neg hn, if_neg (h.primeCnt ▸ hn)]
    rfl
  case pos =>
    have htake := h.window_take hsh hb hn hwin
    rw [primeStep_of_lt P s hn, primeStep_of_lt P t (h.primeCnt ▸ hn)]
    refine ⟨{ hsh with
      phase := by simp [h.primeCnt]
      window_left := by simpa using hsh.window_left
      window_right := by simpa using hsh.window_right }, ?_⟩
    by_cases hlast : s.primeCnt + 1 = P.powWin
    · rw [hlast, List.take_of_length_le (by simp [hsh.window_right]), List.take_of_length_le (by simp [hsh.window_left])]
        at htake
      exact .scan (if_pos hlast) ⟨{ h with
        primeCnt := congrArg (· + 1) h.primeCnt, bias := h.nextBias_eq hb, blkHere := rfl, block := nofun },
        htake, h.idleBuf_agree hb⟩
    · exact .prime (if_neg hlast) { h with
        primeCnt := congrArg (· + 1) h.primeCnt, bias := h.nextBias_eq hb, blkHere := rfl, block := nofun } htake

/-- R157: the block is appended to both runs, or both are full. -/
theorem same_activeStep (hsh : Shown P s t) (hp : s.phase = .scan) (h : ScanSame P s t) (hb : s.blkHere = true) :
    Same P (activeStep P s) (activeStep P t) := by
  by_cases hm : P.maxActive = some s.actCnt
  · rw [activeStep_full P s hm, activeStep_full P t (h.run.actCnt ▸ hm)]
    have hsh' : Shown P (s.consumeBlock P) (t.consumeBlock P) := { hsh with }
    exact hsh'.same_raise .captureOverflow nofun
  · rw [activeStep_room P s hm, activeStep_room P t (h.run.actCnt ▸ hm)]
    refine ⟨{ hsh with }, .scan hp ⟨{ h.run with
      bias := h.run.nextBias_eq hb, blkHere := rfl, block := nofun
      actCnt := congrArg (· + 1) h.run.actCnt, run := ?_ }, h.pwin, h.idle⟩⟩
    have happ := h.run.run.append (corrected P s)
    rw [corrected_length, ← Nat.succ_mul] at happ
    rwa [h.run.actCnt, h.run.corrected_eq hb]

/-- R158, R162: the baseline moves on by the same power, and no run is left. -/
theorem same_noiseStep (hpow : 0 < P.powWin) (hsh : Shown P s t) (hp : s.phase = .scan) (h : ScanSame P s t)
    (hb : s.blkHere = true) : Same P (noiseStep P s) (noiseStep P t) := by
  have hleft : (push s.pwin (blockPower P s)).length = P.powWin :=
    (push_length _ (hsh.window_left ▸ hpow)).trans hsh.window_left
  have hpush : push t.pwin (blockPower P t) = push s.pwin (blockPower P s) := by rw [h.pwin, h.run.blockPower_eq hb]
  have hnone : Agree (0 * P.blockN) s.actBuf t.actBuf := by simpa using agree_zero s.actBuf t.actBuf
  exact ⟨{ hsh with window_left := hleft, window_right := (congrArg List.length hpush).trans hleft },
    .scan hp ⟨{ h.run with
      bias := h.run.nextBias_eq hb, blkHere := rfl, block := nofun
      actCnt := rfl, run := hnone }, hpush, h.run.idleBuf_agree hb⟩⟩

theorem ScanSame.rawEvent_eq (h : ScanSame P s t) (hb : s.blkHere = true) : rawEvent P t = rawEvent P s := by
  rw [rawEvent, rawEvent, h.run.corrected_eq hb, h.run.actCnt, h.idle.slice 0 P.blockN (by omega),
    h.run.run.slice 0 (s.actCnt * P.blockN) (by omega)]

theorem ScanSame.eventWave_eq (h : ScanSame P s t) (hb : s.blkHere = true) : eventWave P t = eventWave P s := by
  simp only [eventWave, trimmedEvent, State.windowSum, h.rawEvent_eq hb, h.pwin]

/-- R159: the waveform is made of the shared blocks, and the detector starts on it. -/
theorem same_eventStep (hsh : Shown P s t) (h : ScanSame P s t) (hb : s.blkHere = true) :
    Same P (eventStep P s) (eventStep P t) := by
  have hwave := h.eventWave_eq hb
  refine ⟨{ hsh with phase := rfl }, .detect rfl rfl ⟨congrArg List.length hwave, ?_⟩ nofun⟩
  change Agree (eventWave P s).length (Buffer.writeList s.wave 0 (eventWave P s)) (Buffer.writeList t.wave 0 (eventWave P t))
  rw [hwave]
  exact agree_writeList_zero s.wave t.wave _

/-- R156: the block is classified alike. -/
theorem same_scanStep (hpow : 0 < P.powWin) (hsh : Shown P s t) (hp : s.phase = .scan) (h : ScanSame P s t)
    (hb : s.blkHere = true) : Same P (scanStep P s) (scanStep P t) := by
  have hact : isActive P (ptp (rawBlock P t)) t.pwin.sum = isActive P (ptp (rawBlock P s)) s.pwin.sum := by
    rw [h.run.rawBlock_eq hb, h.pwin]
  cases ha : isActive P (ptp (rawBlock P s)) s.pwin.sum with
  | true =>
    rw [scanStep_active P s ha, scanStep_active P t (hact.trans ha)]
    exact same_activeStep hsh hp h hb
  | false =>
    obtain hn | hn := Nat.lt_or_ge 1 s.actCnt
    · rw [scanStep_event P s ha hn, scanStep_event P t (hact.trans ha) (h.run.actCnt ▸ hn)]
      exact same_eventStep hsh h hb
    · rw [scanStep_notActive P s hn ha, scanStep_notActive P t (h.run.actCnt ▸ hn) (hact.trans ha)]
      exact same_noiseStep hpow hsh hp h hb

end Segmenter

/-! ### The detector (R180 to R186) -/

section Detector

variable {P : Params} {s t : State}

/-- Two blocks between two samples of DETECT. -/
structure DetectingSame (P : Params) (s t : State) : Prop where
  shown : Shown P s t
  phase : s.phase = .detect
  entered_left : s.entered = true
  entered_right : t.entered = true
  wave : WaveSame s t
  regs : DetectSame s t

theorem DetectingSame.signedSample_eq (h : DetectingSame P s t) (hj : s.detJ < s.waveLen) :
    signedSample t = signedSample s := by
  rw [signedSample, signedSample, h.regs.sign, h.regs.detJ, h.wave.wave _ hj]

/-- R186. -/
theorem DetectingSame.detectAdvance (h : DetectingSame P s t) : Same P (detectAdvance s) (detectAdvance t) := by
  have hj : t.detJ + 1 = s.detJ + 1 := congrArg (· + 1) h.regs.detJ
  by_cases hlast : s.detJ + 1 = s.waveLen
  · rw [Machine.detectAdvance, Machine.detectAdvance, if_pos hlast, if_pos (by rw [hj, h.wave.waveLen, hlast])]
    exact ⟨{ h.shown with phase := rfl }, .recover rfl rfl ⟨h.regs.ivlCnt, h.regs.ivl⟩ nofun⟩
  · rw [detectAdvance_inside s hlast, detectAdvance_inside t (by rwa [hj, h.wave.waveLen])]
    exact ⟨{ h.shown with }, .detect h.phase (h.entered_right.trans h.entered_left.symm) { h.wave with }
      fun _ => { h.regs with detJ := hj }⟩

/-- R183: the peak and its place are taken together. -/
theorem DetectingSame.runSample (h : DetectingSame P s t) (hj : s.detJ < s.waveLen) :
    DetectingSame P (runSample s) (runSample t) := by
  have hv := h.signedSample_eq hj
  obtain hlt | hle := lt_or_ge (s.peak : Int) (signedSample s)
  · rw [runSample_of_lt s hlt, runSample_of_lt t (by rwa [h.regs.peak, hv])]
    exact { h with
      shown := { h.shown with }, wave := { h.wave with }
      regs := { h.regs with peak := congrArg Int.toNat hv, peakIdx := fun _ => h.regs.detJ } }
  · rw [runSample_of_le s hle, runSample_of_le t (by rwa [h.regs.peak, hv])]
    exact h

/-- R184: with a peak its place is shared, and so is the place of an earlier transition. -/
theorem DetectingSame.endRun (h : DetectingSame P s t) (hpk : s.peak ≠ 0) :
    DetectingSame P (endRun P s) (endRun P t) := by
  have hidx := h.regs.peakIdx hpk
  have hthr : nextThr P t = nextThr P s := by rw [nextThr, nextThr, h.regs.peak]
  obtain ⟨hv, hs⟩ | ⟨hv, hs⟩ := endRun_cases P s
  · rw [hs, Machine.endRun, emitInterval_first t (h.regs.havePrev.trans hv)]
    exact { h with
      shown := { h.shown with }, wave := { h.wave with }
      regs := { h.regs with
        sign := congrArg not h.regs.sign, thr := hthr, peak := rfl, havePrev := rfl
        peakIdx := fun h0 => absurd rfl h0, prevIdx := fun _ => hidx } }
  · rw [hs, Machine.endRun, emitInterval_next t (h.regs.havePrev.trans hv), hidx, h.regs.prevIdx hv]
    exact { h with
      shown := { h.shown with }, wave := { h.wave with }
      regs := { h.regs with
        sign := congrArg not h.regs.sign, thr := hthr, peak := rfl, havePrev := rfl
        peakIdx := fun h0 => absurd rfl h0, prevIdx := fun _ => rfl
        ivlCnt := congrArg (· + 1) h.regs.ivlCnt
        ivl := h.regs.ivl.write_next h.regs.ivlCnt _ } }

/-- R182: both answer with the same fault, or make the same sample step. -/
theorem DetectingSame.detectSample (h : DetectingSame P s t) :
    OutcomesRelated (Same P) (detectSample P s) (detectSample P t) := by
  rw [Machine.detectSample, Machine.detectSample, h.wave.waveLen, h.regs.detJ, h.regs.peak]
  by_cases hend : s.waveLen ≤ s.detJ
  · rw [if_pos hend, if_pos hend]
    rfl
  have hj := Nat.not_le.mp hend
  have habove : aboveThr P t = aboveThr P s := by rw [aboveThr, aboveThr, h.regs.thr, h.signedSample_eq hj]
  rw [if_neg hend, if_neg hend, habove]
  by_cases ha : aboveThr P s = true
  · rw [if_pos ha, if_pos ha]
    exact (h.runSample hj).detectAdvance
  rw [if_neg ha, if_neg ha]
  by_cases hpk : s.peak ≠ 0
  · have hguard : (t.havePrev && decide (t.peakIdx < t.prevIdx)) = (s.havePrev && decide (s.peakIdx < s.prevIdx)) := by
      rw [h.regs.havePrev, h.regs.peakIdx hpk]
      cases hv : s.havePrev with
      | false => rfl
      | true => rw [h.regs.prevIdx hv]
    rw [if_pos hpk, if_pos hpk, hguard]
    split
    · rfl
    · exact (h.endRun hpk).detectAdvance
  · rw [if_neg hpk, if_neg hpk]
    exact h.detectAdvance

/-- R180, R181: no interval, and the threshold of the shared initial window. -/
theorem same_detectEntryStep (hsh : Shown P s t) (hp : s.phase = .detect) (hw : s.waitBlk = false) (h : WaveSame s t)
    (he : s.entered = false) (he' : t.entered = false) :
    OutcomesRelated (Same P) (coreStep P s) (coreStep P t) := by
  have hp' := hsh.phase.trans hp
  have hw' := hsh.waitBlk.trans hw
  obtain hn | hn := Nat.eq_zero_or_pos s.waveLen
  · rw [coreStep_detect_empty P s hw hp he hn, coreStep_detect_empty P t hw' hp' he' (h.waveLen.trans hn)]
    exact ⟨{ hsh with phase := rfl }, .recover rfl rfl ⟨rfl, agree_zero _ _⟩ nofun⟩
  · have hthr : initThr P t = initThr P s := by
      rw [initThr, initThr, h.waveLen, h.wave.slice 0 (min P.initWindow s.waveLen) (by omega)]
    rw [coreStep_detect_entry P s hw hp he hn, coreStep_detect_entry P t hw' hp' he' (h.waveLen ▸ hn)]
    exact ⟨{ hsh with }, .detect hp rfl { h with } fun _ =>
      ⟨rfl, rfl, hthr, rfl, rfl, fun h0 => absurd rfl h0, nofun, rfl, agree_zero _ _⟩⟩

end Detector

end Sys2Proof.Machine
end

section
/-! PROOFS. The stages after the detector, for two blocks that agree on what these still read (R200 to R248). -/

namespace Sys2Proof.Machine

variable {P : Params} {s t : State}

/-! ### The bit recoverer (R200 to R206) -/

/-- R200, R202: too few intervals in both, or the same seed. -/
theorem same_recoverEntryStep (hsh : Shown P s t) (hp : s.phase = .recover) (hw : s.waitBlk = false)
    (h : IntervalsSame s t) (he : s.entered = false) (he' : t.entered = false) :
    OutcomesRelated (Same P) (coreStep P s) (coreStep P t) := by
  have hp' := hsh.phase.trans hp
  have hw' := hsh.waitBlk.trans hw
  obtain hn | hn := Nat.lt_or_ge s.ivlCnt (leadIn P)
  · rw [coreStep_recover_tooFew P s hw hp he hn, coreStep_recover_tooFew P t hw' hp' he' (h.ivlCnt ▸ hn)]
    exact ⟨{ hsh with phase := rfl }, .frame rfl rfl ⟨rfl, agree_zero _ _⟩ nofun⟩
  · have hseed := h.ivl.slice P.discard P.clkWin hn
    rw [coreStep_recover_seed P s hw hp he hn, coreStep_recover_seed P t hw' hp' he' (h.ivlCnt ▸ hn)]
    exact ⟨{ hsh with }, .recover hp rfl { h with } fun _ => ⟨hseed.symm, rfl, ⟨rfl, agree_zero _ _⟩⟩⟩

/-- R203 to R205: the next interval and the window are shared, and so is the bit. -/
theorem same_classify (hsh : Shown P s t) (hp : s.phase = .recover) (he : s.entered = true) (he' : t.entered = true)
    (h : IntervalsSame s t) (hr : RecoverSame s t) (hn : leadIn P + s.recI + 2 ≤ s.ivlCnt) :
    Same P (classify P s) (classify P t) := by
  have hx : nextInterval P t = nextInterval P s := by
    rw [nextInterval, nextInterval, hr.recI, h.ivl _ (by omega)]
  have hcnt := congrArg (· + 1) hr.bits.bitCnt
  rw [classify, classify, hx, hr.cwin]
  split
  · exact ⟨{ hsh with }, .recover hp (he'.trans he.symm) { h with } fun _ =>
      ⟨congrArg (push · _) hr.cwin, congrArg (· + 1) hr.recI, hcnt, hr.bits.bits.write_next hr.bits.bitCnt false⟩⟩
  · exact ⟨{ hsh with }, .recover hp (he'.trans he.symm) { h with } fun _ =>
      ⟨congrArg (push · _) hr.cwin, congrArg (· + 2) hr.recI, hcnt, hr.bits.bits.write_next hr.bits.bitCnt true⟩⟩

/-- R206. -/
theorem same_recoverLoopStep (hsh : Shown P s t) (hp : s.phase = .recover) (hw : s.waitBlk = false)
    (he : s.entered = true) (he' : t.entered = true) (h : IntervalsSame s t) (hr : RecoverSame s t) :
    OutcomesRelated (Same P) (coreStep P s) (coreStep P t) := by
  have hp' := hsh.phase.trans hp
  have hw' := hsh.waitBlk.trans hw
  obtain hn | hn := Nat.lt_or_ge s.ivlCnt (leadIn P + s.recI + 2)
  · rw [coreStep_recover_end P s hw hp he hn, coreStep_recover_end P t hw' hp' he' (by rwa [h.ivlCnt, hr.recI])]
    exact ⟨{ hsh with phase := rfl }, .frame rfl rfl { hr.bits with } nofun⟩
  · rw [coreStep_recover_classify P s hw hp he hn,
      coreStep_recover_classify P t hw' hp' he' (by rwa [h.ivlCnt, hr.recI])]
    exact same_classify hsh hp he he' h hr hn

/-! ### The byte framer (R220 to R226) -/

theorem skipZeros_agree {b c : Buffer Bool} (n k : Nat) (h : Agree (k + n) b c) : skipZeros c n k = skipZeros b n k := by
  induction n generalizing k with
  | zero => rfl
  | succ n ih =>
    have hread := h k (by omega)
    cases hb : Buffer.read b k with
    | true => rw [skipZeros_of_one b n k hb, skipZeros_of_one c n k (hread ▸ hb)]
    | false =>
      rw [skipZeros_of_zero b n k hb, skipZeros_of_zero c n k (hread ▸ hb)]
      exact ih (k + 1) fun i hi => h i (by omega)

/-- R220, R221: no bits in both, or the same run-out. -/
theorem same_frameEntryStep (hsh : Shown P s t) (hp : s.phase = .frame) (hw : s.waitBlk = false)
    (h : BitsSame s t) (he : s.entered = false) (he' : t.entered = false) :
    OutcomesRelated (Same P) (coreStep P s) (coreStep P t) := by
  have hp' := hsh.phase.trans hp
  rw [coreStep_frame_entry P s hw hp he, coreStep_frame_entry P t (hsh.waitBlk.trans hw) hp' he']
  obtain hn | hn := Nat.eq_zero_or_pos s.bitCnt
  · rw [frameStage_noBits s he hn, frameStage_noBits t he' (h.bitCnt.trans hn)]
    exact hsh.same_raise .emptyCapture nofun
  · have hskip : skipZeros t.bits t.bitCnt 0 = skipZeros s.bits s.bitCnt 0 := by
      rw [h.bitCnt]
      exact skipZeros_agree s.bitCnt 0 (by simpa using h.bits)
    rw [frameStage_begins s he hn, frameStage_begins t he' (h.bitCnt ▸ hn)]
    exact ⟨{ hsh with }, .frame hp rfl { h with } fun _ => ⟨hskip, rfl, agree_zero _ _⟩⟩

theorem candidate_agree (h : BitsSame s t) (hk : t.frK = s.frK) (hn : s.frK + 5 ≤ s.bitCnt) :
    candidate t = candidate s := by
  have hbit (i : Nat) (hi : i < 5) : Buffer.read t.bits (s.frK + i) = Buffer.read s.bits (s.frK + i) :=
    (h.bits _ (by omega)).symm
  rw [candidate, candidate, hk, hbit 1 (by decide), hbit 2 (by decide), hbit 3 (by decide), hbit 4 (by decide),
    h.bits s.frK (by omega)]

/-- R222 to R226: the same candidate is stored, or ends framing. -/
theorem same_frameBodyStep (hsh : Shown P s t) (hp : s.phase = .frame) (hw : s.waitBlk = false)
    (he : s.entered = true) (he' : t.entered = true) (h : BitsSame s t) (hf : FrameSame s t) :
    OutcomesRelated (Same P) (coreStep P s) (coreStep P t) := by
  have hp' := hsh.phase.trans hp
  have hw' := hsh.waitBlk.trans hw
  have hdone : Same P (s.handOff .decode) (t.handOff .decode) :=
    ⟨{ hsh with phase := rfl }, .decode rfl rfl { hf.syms with } nofun⟩
  obtain hn | hn := Nat.lt_or_ge s.bitCnt (s.frK + 5)
  · rw [coreStep_frame_short P s hw hp he hn, coreStep_frame_short P t hw' hp' he' (by rwa [h.bitCnt, hf.frK])]
    exact hdone
  rw [coreStep_frame_candidate P s hw hp he hn,
    coreStep_frame_candidate P t hw' hp' he' (by rwa [h.bitCnt, hf.frK]), candidate_agree h hf.frK hn]
  cases hodd : oddParity (candidate s) with
  | false =>
    rw [s.frameCandidate_even _ hodd, t.frameCandidate_even _ hodd]
    exact hdone
  | true =>
    rw [s.frameCandidate_odd _ hodd, t.frameCandidate_odd _ hodd]
    exact ⟨{ hsh with }, .frame hp (he'.trans he.symm) { h with } fun _ =>
      ⟨congrArg (· + 5) hf.frK, congrArg (· + 1) hf.syms.symCnt, hf.syms.syms.write_next hf.syms.symCnt _⟩⟩

/-! ### The decoder (R240 to R248) -/

theorem lastSymbol_agree (h : SymbolsSame s t) (hn : 0 < s.symCnt) :
    Buffer.read t.syms (t.symCnt - 1) = Buffer.read s.syms (s.symCnt - 1) := by
  rw [h.symCnt, h.syms _ (by omega)]

theorem decodedSym_agree (h : SymbolsSame s t) (hd : t.dir = s.dir) (i : Nat) (hi : i < s.symCnt) :
    decodedSym t i = decodedSym s i := by
  rw [decodedSym, decodedSym, hd, h.symCnt, h.syms i hi, h.syms (s.symCnt - 1 - i) (by omega)]

/-- R241 to R244: the same direction and first symbol, or no start sentinel in both. -/
theorem same_enterDecode (hsh : Shown P s t) (hp : s.phase = .decode) (h : SymbolsSame s t) (hn : 0 < s.symCnt)
    (w : Symbol) : Same P (s.enterDecode w) (t.enterDecode w) := by
  have hlast := lastSymbol_agree h hn
  obtain ⟨hw, hs⟩ | ⟨hw, hl, hs⟩ | ⟨hw, hl, hs⟩ := s.enterDecode_cases w
  · rw [hs, t.enterDecode_start w hw]
    exact ⟨{ hsh with }, .decode hp rfl { h with } fun _ => ⟨rfl, rfl, rfl, rfl, agree_zero _ _⟩⟩
  · rw [hs, State.enterDecode, if_neg hw, State.enterReversed, hlast, if_pos hl]
    exact ⟨{ hsh with }, .decode hp rfl { h with } fun _ => ⟨rfl, rfl, rfl, rfl, agree_zero _ _⟩⟩
  · have hsh' : Shown P { s with dir := true } { t with dir := true } := { hsh with }
    rw [hs, State.enterDecode, if_neg hw, State.enterReversed, hlast, if_neg hl]
    exact hsh'.same_raise .missingStartSentinel nofun

/-- R240 to R244. -/
theorem same_decodeEntryStep (hsh : Shown P s t) (hp : s.phase = .decode) (hw : s.waitBlk = false)
    (h : SymbolsSame s t) (he : s.entered = false) (he' : t.entered = false) :
    OutcomesRelated (Same P) (coreStep P s) (coreStep P t) := by
  have hp' := hsh.phase.trans hp
  have hw' := hsh.waitBlk.trans hw
  obtain hn | hn := Nat.eq_zero_or_pos s.symCnt
  · rw [coreStep_decode_empty P s hw hp he hn, coreStep_decode_empty P t hw' hp' he' (h.symCnt.trans hn)]
    exact hsh.same_raise .emptyCapture nofun
  · rw [coreStep_decode_entry P s hw hp he hn, coreStep_decode_entry P t hw' hp' he' (h.symCnt ▸ hn), ← h.syms 0 hn]
    exact same_enterDecode hsh hp h hn _

/-- R247: equal accumulators meet the same next symbol. -/
theorem same_checkLrc (hsh : Shown P s t) (h : SymbolsSame s t) (hd : DecodeSame s t) :
    Same P s.checkLrc t.checkLrc := by
  rw [State.checkLrc, State.checkLrc, h.symCnt, hd.decJ, hd.acc]
  by_cases hn : s.symCnt ≤ s.decJ + 1
  · rw [if_pos hn, if_pos hn]
    exact hsh.same_raise .badLrc nofun
  rw [if_neg hn, if_neg hn, decodedSym_agree h hd.dir _ (Nat.not_le.mp hn)]
  split
  · exact hsh.same_raise .badLrc nofun
  · exact hsh.same_raise .ok fun _ => ⟨hd.outLen, hd.out⟩

/-- R245, R246: the end sentinel finishes both accumulators alike. -/
theorem same_takeEnd (hsh : Shown P s t) (h : SymbolsSame s t) (hd : DecodeSame s t) (data : BitVec 4) :
    Same P (s.takeEnd data) (t.takeEnd data) :=
  same_checkLrc { hsh with } { h with } { hd with acc := by rw [hd.acc] }

/-- R245, R248: the same character is output at the same place. -/
theorem same_takeData (hsh : Shown P s t) (hp : s.phase = .decode) (he : s.entered = true) (he' : t.entered = true)
    (h : SymbolsSame s t) (hd : DecodeSame s t) (data : BitVec 4) (c : Byte) :
    Same P (s.takeData data c) (t.takeData data c) := by
  have htext : Agree s.resultLen (Buffer.write s.out s.outLen c) (Buffer.write t.out t.outLen c) := by
    rw [hd.outLen]
    exact hsh.text.writeList s.outLen [c]
  have hacc : foldData t.acc data = foldData s.acc data := by rw [hd.acc]
  exact ⟨{ hsh with text := htext }, .decode hp (he'.trans he.symm) { h with } fun _ =>
    ⟨hd.dir, congrArg (· + 1) hd.decJ, hacc, congrArg (· + 1) hd.outLen, hd.out.write_next hd.outLen c⟩⟩

/-- R245: the symbols are exhausted in both, or the same one is taken. -/
theorem same_decodeBodyStep (hsh : Shown P s t) (hp : s.phase = .decode) (hw : s.waitBlk = false)
    (he : s.entered = true) (he' : t.entered = true) (h : SymbolsSame s t) (hd : DecodeSame s t) :
    OutcomesRelated (Same P) (coreStep P s) (coreStep P t) := by
  have hp' := hsh.phase.trans hp
  have hw' := hsh.waitBlk.trans hw
  obtain hn | hn := Nat.lt_or_ge s.decJ s.symCnt
  case inr =>
    rw [coreStep_decode_exhausted P s hw hp he hn,
      coreStep_decode_exhausted P t hw' hp' he' (by rw [h.symCnt, hd.decJ]; exact hn)]
    exact hsh.same_raise .missingEndSentinel nofun
  rw [coreStep_decode_body P s hw hp he hn, coreStep_decode_body P t hw' hp' he' (by rwa [h.symCnt, hd.decJ]), hd.decJ,
    decodedSym_agree h hd.dir _ hn]
  by_cases hc : charOf (decodedSym s s.decJ) = endChar
  · rw [State.takeSymbol, State.takeSymbol, if_pos hc, if_pos hc]
    exact same_takeEnd hsh h hd _
  · rw [s.takeSymbol_data _ hc, t.takeSymbol_data _ hc]
    exact same_takeData hsh hp he he' h hd _ _

end Sys2Proof.Machine
end

section
/-! PROOFS. Nothing carries over, put together: a core step, a step, a run, and what the host sees of it (R59, R80). -/

namespace Sys2Proof.Machine

section Steps

variable {P : Params} {s t : State}

/-- R138: whatever the stage, the two core steps are alike. -/
theorem Same.coreStep (hpow : 0 < P.powWin) (h : Same P s t) :
    OutcomesRelated (Same P) (coreStep P s) (coreStep P t) := by
  have ⟨hsh, hstage⟩ := h
  cases hw : s.waitBlk with
  | true =>
    rw [coreStep_waiting P s hw, coreStep_waiting P t (hsh.waitBlk.trans hw)]
    exact h
  | false =>
    have hw' := hsh.waitBlk.trans hw
    cases hstage with
    | idle hp =>
      rw [coreStep_idle P s hw hp, coreStep_idle P t hw' (hsh.phase.trans hp)]
      exact h
    | prime hp hrun hwin =>
      have hp' := hsh.phase.trans hp
      cases hb : s.blkHere with
      | true =>
        rw [coreStep_primeBlock P s hp hw hb, coreStep_primeBlock P t hp' hw' (hrun.blkHere.trans hb)]
        exact same_primeStep hsh hrun hwin hb
      | false =>
        rw [coreStep_beginBlock P s (.inl hp) hw hb, coreStep_beginBlock P t (.inl hp') hw' (hrun.blkHere.trans hb)]
        exact h.beginBlockStep
    | scan hp hscan =>
      have hp' := hsh.phase.trans hp
      cases hb : s.blkHere with
      | true =>
        rw [coreStep_scanBlock P s hp hw hb, coreStep_scanBlock P t hp' hw' (hscan.run.blkHere.trans hb)]
        exact same_scanStep hpow hsh hp hscan hb
      | false =>
        rw [coreStep_beginBlock P s (.inr hp) hw hb, coreStep_beginBlock P t (.inr hp') hw' (hscan.run.blkHere.trans hb)]
        exact h.beginBlockStep
    | detect hp he hwave hin =>
      cases hent : s.entered with
      | true =>
        rw [coreStep_detect P s hw hp, coreStep_detect P t hw' (hsh.phase.trans hp), detectStep, detectStep, if_pos hent,
          if_pos (he.trans hent)]
        exact DetectingSame.detectSample ⟨hsh, hp, hent, he.trans hent, hwave, hin hent⟩
      | false => exact same_detectEntryStep hsh hp hw hwave hent (he.trans hent)
    | recover hp he hivl hin =>
      cases hent : s.entered with
      | true => exact same_recoverLoopStep hsh hp hw hent (he.trans hent) hivl (hin hent)
      | false => exact same_recoverEntryStep hsh hp hw hivl hent (he.trans hent)
    | frame hp he hbits hin =>
      cases hent : s.entered with
      | true => exact same_frameBodyStep hsh hp hw hent (he.trans hent) hbits (hin hent)
      | false => exact same_frameEntryStep hsh hp hw hbits hent (he.trans hent)
    | decode hp he hsyms hin =>
      cases hent : s.entered with
      | true => exact same_decodeBodyStep hsh hp hw hent (he.trans hent) hsyms (hin hent)
      | false => exact same_decodeEntryStep hsh hp hw hsyms hent (he.trans hent)

/-- The tapes are the same, so the same one moves. -/
theorem Same.stepWith (hpow : 0 < P.powWin) (h : Same P s t) :
    OutcomesRelated (Same P) (stepWith P s) (stepWith P t) := by
  have hin : t.inputs = s.inputs := h.shown.inputs
  cases hs : s.inputs with
  | nil =>
    rw [stepWith_silent P s hs, stepWith_silent P t (hin.trans hs)]
    exact h.coreStep hpow
  | cons m rest =>
    have hrest := h.setInputs rest
    cases m with
    | core =>
      rw [stepWith_core P s rest hs, stepWith_core P t rest (hin.trans hs)]
      exact hrest.coreStep hpow
    | command c =>
      rw [stepWith_command P s c rest hs, stepWith_command P t c rest (hin.trans hs)]
      exact hrest.command c
    | port m =>
      rw [stepWith_port P s m rest hs, stepWith_port P t m rest (hin.trans hs)]
      exact hrest.port m

theorem Same.runWith (hpow : 0 < P.powWin) (h : Same P s t) (n : Nat) :
    OutcomesRelated (Same P) (runWith P n s) (runWith P n t) := by
  induction n generalizing s t with
  | zero => exact h
  | succ n ih =>
    have hstep := h.stepWith hpow
    rw [Machine.runWith, Machine.runWith]
    cases hs : Machine.stepWith P s <;> cases ht : Machine.stepWith P t <;> rw [hs, ht] at hstep
    case next.next u v => exact ih hstep
    case fault.fault r q => exact hstep
    case refused.refused r q => exact hstep
    all_goals exact False.elim hstep

/-- What two related blocks show to the host is the same. -/
theorem Shown.looksSame (h : Shown P s t) : LooksSame s t := by
  refine ⟨?_, h.resultLen.symm, h.text⟩
  rw [State.status, State.status, State.busy, State.busy, h.resultCode, h.phase, h.waitBlk, h.cancelReq, h.done]

theorem outcomesLookSame_of_related {a b : Host.Outcome State Fault Refusal} (h : OutcomesRelated (Same P) a b) :
    OutcomesLookSame a b := by
  cases a <;> cases b
  case next.next u v => exact h.shown.looksSame
  all_goals exact h

end Steps

/-- Settles O49: START leaves two idle blocks that agree on all that a stage still reads (`same_startInvocation`), and
every later step keeps that (`Same.stepWith`). -/
theorem nothingCarriesOver : Obligations.NothingCarriesOver := by
  intro P s t rest n hwf hs ht hwin hwin' hin hin'
  obtain ⟨-, hpow, -⟩ := (Params.wellFormed_iff P).mp hwf
  have hstart (u : State) (hu : u.phase = .idle) (hui : u.inputs = .command 0b01#2 :: rest) :
      stepWith P u = .next (State.startInvocation { u with inputs := rest }) :=
    (stepWith_command P u _ rest hui).trans (exec_start_idle _ hu)
  rw [runWith_succ_of_next n (hstart s hs hin), runWith_succ_of_next n (hstart t ht hin')]
  have hsame : Same P (State.startInvocation { s with inputs := rest }) (State.startInvocation { t with inputs := rest }) :=
    same_startInvocation rfl hwin hwin'
  exact outcomesLookSame_of_related (hsame.runWith hpow n)

end Sys2Proof.Machine
end
